-- ==== Sys2Proof/Word.lean ====
section
/-! DEFINITION. The word types of the block: its wire bytes, nibbles and registers (spec/00_scope.md, Notation). -/

namespace Sys2Proof

/-- A byte of the wire, or an 8-bit register (00_scope.md, Notation). -/
abbrev Byte := BitVec 8

/-- A 4-bit field: an order id, a complement, a feedback kind code (00_scope.md, Notation). -/
abbrev Nibble := BitVec 4

/-- `bits16` of the spec's notation. -/
abbrev Bits16 := BitVec 16

/-- `bits32` of the spec's notation. -/
abbrev Bits32 := BitVec 32

end Sys2Proof
end

