-- ==== Sys2Proof/Config.lean ====
section
/-! DEFINITION. The implementation parameters of spec/00_scope.md: constants where the spec fixes a value,
opaque constants where it leaves the value OPEN. No order and no agent step writes any of them (R36). -/

namespace Sys2Proof

/-- The two argument fields of an order, as the values of MV_SRC and MT_SRC (00_scope.md; D9, D10). -/
inductive ArgSel where
  | arg0
  | arg1
deriving DecidableEq, Repr

/-- NOISE_DISCARD: bytes discarded after reset before assembly starts (00_scope.md; D5; entry 10). -/
def Config.noiseDiscard : Nat := 3

/-- VAR_RESET: the binary32 pattern of 1.0 (00_scope.md; R13). -/
def Config.varReset : Bits32 := 0x3F800000

/-- TRACK_COUNT: samples streamed by one tracked motor-value order (00_scope.md; R114). -/
def Config.trackCount : Nat := 500

/-- MV_SRC: the argument captured as motorValue (00_scope.md; D9; entry 10). -/
def Config.mvSrc : ArgSel := .arg1

/-- MT_SRC: the argument captured as motorTime (00_scope.md; D10; entry 10). -/
def Config.mtSrc : ArgSel := .arg1

/-- MOTORS_SLOT: slot and TERMINATE id of the MOTORS continuation (00_scope.md; D11, C7; entry 10). -/
def Config.motorsSlot : Nibble := 7

/-- The assignment of the four feedback kind codes, OPEN in the spec (R70, R71, D3; entry 4): a permutation of
the 4-bit values, whose first four images are K_ACK, K_TERM, K_VAR, K_TRACK. Every choice of four pairwise
distinct codes is one of these, and nothing but their distinctness can be proved of them. -/
opaque Config.kindCoding : Equiv.Perm Nibble

/-- TRACK_NIBBLE: low nibble of a TRACKING frame's first byte, OPEN in the spec (D4, C3; entry 4). -/
opaque Config.trackNibble : Nibble

/-- TRACK_SAMPLE(i) for i from 1 to 499, OPEN in the spec (R165, D19; entry 5). -/
opaque Config.trackTable : Nat → Bits32

end Sys2Proof
end

