-- ==== Sys2Proof/Syntax.lean ====
section
/-! DEFINITION. The orders as syntax: one constructor per row of spec/opcode_table.json, the request frame and
the decoded order they are read from (R60, R93), and the spec's assembler notation (R73, R74). -/

namespace Sys2Proof

/-- An order, one constructor per row of spec/opcode_table.json (R66). Every order carries all its decoded
fields, used or not (R65): the complement, arg0 and arg1, in that order. -/
inductive Instr where
  | lidarToggle (complement : Nibble) (arg0 arg1 : Bits16)
  | move (complement : Nibble) (arg0 arg1 : Bits16)
  | rotate (complement : Nibble) (arg0 arg1 : Bits16)
  | cancelMove (complement : Nibble) (arg0 arg1 : Bits16)
  | motorValue (complement : Nibble) (arg0 arg1 : Bits16)
  | motorTime (complement : Nibble) (arg0 arg1 : Bits16)
  | pumps (complement : Nibble) (arg0 arg1 : Bits16)
  | motors (complement : Nibble) (arg0 arg1 : Bits16)
  | motorsArg (complement : Nibble) (arg0 arg1 : Bits16)
  | setVar (complement : Nibble) (arg0 arg1 : Bits16)
  | getVar (complement : Nibble) (arg0 arg1 : Bits16)
  | track (complement : Nibble) (arg0 arg1 : Bits16)
  | reserved12 (complement : Nibble) (arg0 arg1 : Bits16)
  | reserved13 (complement : Nibble) (arg0 arg1 : Bits16)
  | reserved14 (complement : Nibble) (arg0 arg1 : Bits16)
  | reserved15 (complement : Nibble) (arg0 arg1 : Bits16)
deriving DecidableEq, Repr

/-- A complete request frame: five bytes in arrival order (R60, R69). -/
structure Frame where
  byte0 : Byte
  byte1 : Byte
  byte2 : Byte
  byte3 : Byte
  byte4 : Byte
deriving DecidableEq, Repr

/-- The decoded order of R93, all five fields (R65). -/
structure Order where
  id : Nibble
  complement : Nibble
  arg0 : Bits16
  arg1 : Bits16
  floatBits : Bits32
deriving DecidableEq, Repr

/-- The mnemonics of the order map (R66, R73). -/
inductive Mnemonic where
  | lidarToggle | move | rotate | cancelMove | motorValue | motorTime | pumps | motors
  | motorsArg | setVar | getVar | track | reserved12 | reserved13 | reserved14 | reserved15
deriving DecidableEq, Repr

/-- A line of the spec's assembler notation, a mnemonic and its numeric operands: complement, arg0, arg1, the
trailing ones possibly omitted (R73). -/
structure AsmLine where
  mnemonic : Mnemonic
  operands : List Nat
deriving DecidableEq, Repr

/-- The pseudo-orders of R74, each one request frame. -/
inductive PseudoOrder where
  | lidarStop
  | lidarRun
  | trackOn
  | trackOff
  | moveT (t : Int)
  | rotateT (t : Int)
  | setVarF (index : Nat) (pattern : Nat)
  | getVar (index : Nat)
deriving DecidableEq, Repr

end Sys2Proof
end

