-- ==== Sys2Proof/WellFormed.lean ====
section
/-! DEFINITION. Well-formedness of written orders. A term of Instr needs no check: its fields have exactly the
widths of the frame's fields, and no request frame is illegal (R67; entry 13). What can be ill-formed is a line
of the assembler notation, whose operands are numbers (R73, R74). -/

namespace Sys2Proof

/-- At most three operands: complement, arg0, arg1 (R73; entry 13). -/
def AsmLine.countOk (l : AsmLine) : Bool := l.operands.length ≤ 3

/-- The complement fits its 4-bit field; an omitted one is 0 (R73). -/
def AsmLine.complementOk (l : AsmLine) : Bool := l.operands.getD 0 0 < 2 ^ 4

/-- arg0 fits its 16-bit field (R73). -/
def AsmLine.arg0Ok (l : AsmLine) : Bool := l.operands.getD 1 0 < 2 ^ 16

/-- arg1 fits its 16-bit field (R73). -/
def AsmLine.arg1Ok (l : AsmLine) : Bool := l.operands.getD 2 0 < 2 ^ 16

/-- Every operand is an unsigned value of its field's width (R73). -/
def AsmLine.wellFormed (l : AsmLine) : Bool :=
  l.countOk && l.complementOk && l.arg0Ok && l.arg1Ok

/-- A signed 16-bit value, as move.t and rotate.t take (R74). -/
def PseudoOrder.signed16Ok (t : Int) : Bool := -(2 ^ 15) ≤ t && t < 2 ^ 15

/-- A variable index is a 4-bit complement (R74, R14). -/
def PseudoOrder.indexOk (index : Nat) : Bool := index < 2 ^ 4

/-- A binary32 pattern has 32 bits (R74). -/
def PseudoOrder.patternOk (pattern : Nat) : Bool := pattern < 2 ^ 32

/-- Every operand of a pseudo-order is in the range R74 gives it. -/
def PseudoOrder.wellFormed : PseudoOrder → Bool
  | .lidarStop => true
  | .lidarRun => true
  | .trackOn => true
  | .trackOff => true
  | .moveT t => PseudoOrder.signed16Ok t
  | .rotateT t => PseudoOrder.signed16Ok t
  | .setVarF index pattern => PseudoOrder.indexOk index && PseudoOrder.patternOk pattern
  | .getVar index => PseudoOrder.indexOk index

end Sys2Proof
end

