-- ==== Sys2Proof/Decode.lean ====
section
/-! DEFINITION. The decoder, total on any bytes (R93, R94), the encoder of R73 and the assembler over it
(R73, R74), and the reading of an opcode-table word (R60, R66). -/

namespace Sys2Proof

/-- Decode of R93: the five fields of the frame, with the shifts and masks the rule writes. -/
def decodeOrder (f : Frame) : Order :=
  { id := f.byte0.extractLsb' 4 4
    complement := f.byte0.extractLsb' 0 4
    arg0 := (f.byte1.setWidth 16 <<< 8) ||| f.byte2.setWidth 16
    arg1 := (f.byte3.setWidth 16 <<< 8) ||| f.byte4.setWidth 16
    floatBits := (f.byte1.setWidth 32 <<< 24) ||| (f.byte2.setWidth 32 <<< 16) |||
      (f.byte3.setWidth 32 <<< 8) ||| f.byte4.setWidth 32 }

/-- The order map of R66, on the four bits of the id, high bit first as in the table's byte0 patterns: the id
alone selects the order, and the 16 ids are all there are (R67). -/
def instrOf (id complement : Nibble) (arg0 arg1 : Bits16) : Instr :=
  match id[3], id[2], id[1], id[0] with
  | false, false, false, false => .lidarToggle complement arg0 arg1
  | false, false, false, true => .move complement arg0 arg1
  | false, false, true, false => .rotate complement arg0 arg1
  | false, false, true, true => .cancelMove complement arg0 arg1
  | false, true, false, false => .motorValue complement arg0 arg1
  | false, true, false, true => .motorTime complement arg0 arg1
  | false, true, true, false => .pumps complement arg0 arg1
  | false, true, true, true => .motors complement arg0 arg1
  | true, false, false, false => .motorsArg complement arg0 arg1
  | true, false, false, true => .setVar complement arg0 arg1
  | true, false, true, false => .getVar complement arg0 arg1
  | true, false, true, true => .track complement arg0 arg1
  | true, true, false, false => .reserved12 complement arg0 arg1
  | true, true, false, true => .reserved13 complement arg0 arg1
  | true, true, true, false => .reserved14 complement arg0 arg1
  | true, true, true, true => .reserved15 complement arg0 arg1

/-- The order a complete frame spells; it has no failure (R67, R94). -/
def decodeFrame (f : Frame) : Instr :=
  let o := decodeOrder f
  instrOf o.id o.complement o.arg0 o.arg1

/-- Why a byte sequence spells no order: it holds no complete frame. No complete frame is rejected (R67). -/
inductive DecodeReject where
  /-- Fewer than five bytes are there (R69). -/
  | incompleteFrame (have_ : Nat)
deriving DecidableEq, Repr

/-- The order at the front of a byte sequence, and the bytes after it (R69). -/
def decode : List Byte → Except DecodeReject (Instr × List Byte)
  | b0 :: b1 :: b2 :: b3 :: b4 :: rest => .ok (decodeFrame ⟨b0, b1, b2, b3, b4⟩, rest)
  | short => .error (.incompleteFrame short.length)

/-- The order id (R66). -/
def Instr.id : Instr → Nibble
  | .lidarToggle _ _ _ => 0
  | .move _ _ _ => 1
  | .rotate _ _ _ => 2
  | .cancelMove _ _ _ => 3
  | .motorValue _ _ _ => 4
  | .motorTime _ _ _ => 5
  | .pumps _ _ _ => 6
  | .motors _ _ _ => 7
  | .motorsArg _ _ _ => 8
  | .setVar _ _ _ => 9
  | .getVar _ _ _ => 10
  | .track _ _ _ => 11
  | .reserved12 _ _ _ => 12
  | .reserved13 _ _ _ => 13
  | .reserved14 _ _ _ => 14
  | .reserved15 _ _ _ => 15

/-- The complement field (R62). -/
def Instr.complement : Instr → Nibble
  | .lidarToggle c _ _ | .move c _ _ | .rotate c _ _ | .cancelMove c _ _
  | .motorValue c _ _ | .motorTime c _ _ | .pumps c _ _ | .motors c _ _
  | .motorsArg c _ _ | .setVar c _ _ | .getVar c _ _ | .track c _ _
  | .reserved12 c _ _ | .reserved13 c _ _ | .reserved14 c _ _ | .reserved15 c _ _ => c

/-- The arg0 field (R63). -/
def Instr.arg0 : Instr → Bits16
  | .lidarToggle _ a _ | .move _ a _ | .rotate _ a _ | .cancelMove _ a _
  | .motorValue _ a _ | .motorTime _ a _ | .pumps _ a _ | .motors _ a _
  | .motorsArg _ a _ | .setVar _ a _ | .getVar _ a _ | .track _ a _
  | .reserved12 _ a _ | .reserved13 _ a _ | .reserved14 _ a _ | .reserved15 _ a _ => a

/-- The arg1 field (R63). -/
def Instr.arg1 : Instr → Bits16
  | .lidarToggle _ _ b | .move _ _ b | .rotate _ _ b | .cancelMove _ _ b
  | .motorValue _ _ b | .motorTime _ _ b | .pumps _ _ b | .motors _ _ b
  | .motorsArg _ _ b | .setVar _ _ b | .getVar _ _ b | .track _ _ b
  | .reserved12 _ _ b | .reserved13 _ _ b | .reserved14 _ _ b | .reserved15 _ _ b => b

/-- The encoding of an id, a complement and two arguments, as R73 writes its five bytes. -/
def encodeFields (id complement : Nibble) (arg0 arg1 : Bits16) : Frame :=
  { byte0 := (id.setWidth 8 <<< 4) ||| complement.setWidth 8
    byte1 := (arg0 >>> 8).setWidth 8
    byte2 := (arg0 &&& 0xFF).setWidth 8
    byte3 := (arg1 >>> 8).setWidth 8
    byte4 := (arg1 &&& 0xFF).setWidth 8 }

/-- The frame of an order (R73). -/
def encodeFrame (i : Instr) : Frame := encodeFields i.id i.complement i.arg0 i.arg1

/-- The bytes of a frame in arrival order (R60). -/
def Frame.bytes (f : Frame) : List Byte := [f.byte0, f.byte1, f.byte2, f.byte3, f.byte4]

/-- The bytes of an order's request frame, in the order the Host offers them (R60, R73). -/
def encode (i : Instr) : List Byte := (encodeFrame i).bytes

/-- The frame word F of R60, whose bits spec/opcode_table.json numbers: byte0 is F[39:32], byte4 is F[7:0]. -/
def Frame.word (f : Frame) : BitVec 40 :=
  f.byte0 ++ f.byte1 ++ f.byte2 ++ f.byte3 ++ f.byte4

/-- The frame of a 40-bit frame word (R60). -/
def frameOfWord (w : BitVec 40) : Frame :=
  { byte0 := w.extractLsb' 32 8
    byte1 := w.extractLsb' 24 8
    byte2 := w.extractLsb' 16 8
    byte3 := w.extractLsb' 8 8
    byte4 := w.extractLsb' 0 8 }

/-- The frame of an opcode-table word of `nbits` bits; the bits above them are 0 (entry 12). -/
def frameOfTableWord (nbits w : Nat) : Frame := frameOfWord (BitVec.ofNat 40 (w % 2 ^ nbits))

/-- What the decoder reads from an opcode-table word: the frame word's bytes laid out in arrival order and given
to the decoder. A word longer than the 40 bits of a frame is none of the table's (R69; entry 12). -/
def decodeTableWord (nbits w : Nat) : Option Instr :=
  if 40 < nbits then none
  else
    match decode (frameOfTableWord nbits w).bytes with
    | .ok (i, _) => some i
    | .error _ => none

/-- The id a mnemonic stands for (R66). -/
def Mnemonic.id : Mnemonic → Nibble
  | .lidarToggle => 0
  | .move => 1
  | .rotate => 2
  | .cancelMove => 3
  | .motorValue => 4
  | .motorTime => 5
  | .pumps => 6
  | .motors => 7
  | .motorsArg => 8
  | .setVar => 9
  | .getVar => 10
  | .track => 11
  | .reserved12 => 12
  | .reserved13 => 13
  | .reserved14 => 14
  | .reserved15 => 15

/-- The order an assembler line spells: omitted operands are 0 (R73). An ill-formed line spells none. -/
def assemble (l : AsmLine) : Option Instr :=
  if l.wellFormed then
    some (instrOf l.mnemonic.id (BitVec.ofNat 4 (l.operands.getD 0 0))
      (BitVec.ofNat 16 (l.operands.getD 1 0)) (BitVec.ofNat 16 (l.operands.getD 2 0)))
  else none

/-- `t & 0xFFFF` of R74: the two's-complement pattern of a signed operand, as a number. -/
def signedOperand (t : Int) : Nat := (BitVec.ofInt 16 t).toNat

/-- The expansion table of R74. -/
def PseudoOrder.expand : PseudoOrder → AsmLine
  | .lidarStop => ⟨.lidarToggle, [1, 0, 0]⟩
  | .lidarRun => ⟨.lidarToggle, [0, 0, 0]⟩
  | .trackOn => ⟨.track, [1, 0, 0]⟩
  | .trackOff => ⟨.track, [0, 0, 0]⟩
  | .moveT t => ⟨.move, [0, 0, signedOperand t]⟩
  | .rotateT t => ⟨.rotate, [0, 0, signedOperand t]⟩
  | .setVarF index pattern => ⟨.setVar, [index, pattern / 2 ^ 16, pattern % 2 ^ 16]⟩
  | .getVar index => ⟨.getVar, [index, 0, 0]⟩

/-- The order a pseudo-order stands for; an ill-formed one stands for none (R74). -/
def PseudoOrder.assemble (p : PseudoOrder) : Option Instr :=
  if p.wellFormed then Sys2Proof.assemble p.expand else none

end Sys2Proof
end

