-- ==== Sys2Proof/Machine/State.lean ====
section
/-! DEFINITION. The state of the block as plain data (spec/10_state.md), the reasons a step can stop, and the
state after reset (R200). -/

namespace Sys2Proof.Machine

/-- The fault codes of R180: there is exactly one. -/
inductive FaultCode where
  /-- MOTORS_ARG_UNDERFLOW: a motors-arg order received while pendCount = 0 (R118, R182). -/
  | motorsArgUnderflow
deriving DecidableEq, Repr

/-- What a completion slot holds (R26). -/
inductive Slot where
  /-- The no-op variant (R145). -/
  | idle
  /-- Fires at the first poll tick with lidarStopped = false (R146). -/
  | awaitLidarRun (target : Nibble)
  /-- Fires at the next poll tick (R147). -/
  | fireNext (target : Nibble)
deriving DecidableEq, Repr

/-- One move of an agent: the nondeterminism of R185 (D25) and the Host of R54 as plain data (entry 1). -/
inductive Move where
  /-- The Host offers the byte and the RX engine accepts it in one step (R34, R90). -/
  | rx (b : Byte)
  /-- The Poller evaluates one slot (R141). -/
  | poll
  /-- The Host resets the block (R54, R200; entry 3). -/
  | reset
deriving DecidableEq, Repr

/-- The state of the block, field by field as spec/10_state.md lists it, and the model's own `schedule`. -/
structure State where
  /-- The Variable Store, 32-bit patterns (R13). -/
  vars : Vector Bits32 16
  /-- R15. -/
  lidarStopped : Bool
  /-- R16. -/
  tracking : Bool
  /-- R17. -/
  tickTarget : Bits16
  /-- R18. -/
  motorID : Byte
  /-- R19. -/
  motorValue : Bits16
  /-- R20. -/
  motorTime : Bits16
  /-- R21. -/
  pumpBitmask : Bits16
  /-- R22. -/
  pendCount : Nibble
  /-- R23. -/
  pendLen : Nibble
  /-- The pending motor-id list; `none` is the spec's "no value" (R24; entry 8). -/
  pendIDs : Vector (Option Byte) 15
  /-- The Completion Slots (R25). -/
  slot : Vector Slot 16
  /-- R27. -/
  pollCursor : Nibble
  /-- Noise bytes still to be discarded, 0 to NOISE_DISCARD (R28). -/
  rxDiscard : Nat
  /-- Bytes of the current frame already held, 0 to 4 (R29). -/
  rxPos : Fin 5
  /-- The frame buffer; `none` is the spec's "no value" (R30; entry 7). -/
  rxBuf : Vector (Option Byte) 5
  /-- The fault latch (R31). -/
  fault : Option FaultCode
  /-- Bytes sent since reset, in send order (R32). -/
  tx : List Byte
  /-- The MODEL's own field: the coming moves of the environment and the scheduler (entry 1). -/
  schedule : List Move
deriving DecidableEq, Repr

/-- Why a step ends in a fault. -/
inductive Fault where
  /-- Raised by `step` (through rxStep and pollStep) when the fault latch is set and the next move is not a
  reset: neither agent has a step (R181, R90, R141). Safe: the spec stops the block there too (entry 6). -/
  | stopped (code : FaultCode)
deriving DecidableEq, Repr

/-- Why a step is refused. -/
inductive Refusal where
  /-- Raised by `exec` for an instruction that has no meaning yet. Safe. No arm of this model raises it. -/
  | notModelled (mnemonic : String)
  /-- Raised by the frame assembler when a frame completes over a buffer entry that holds no value; spec/93
  row 19 gives it no meaning, and no run reaches it (R30). Safe (entry 7). -/
  | frameByteHasNoValue
deriving DecidableEq, Repr

/-- The state after reset (R200). -/
def State.reset : State :=
  { vars := Vector.replicate 16 Config.varReset
    lidarStopped := false
    tracking := false
    tickTarget := 0
    motorID := 0
    motorValue := 0
    motorTime := 0
    pumpBitmask := 0
    pendCount := 0
    pendLen := 0
    pendIDs := Vector.replicate 15 none
    slot := Vector.replicate 16 .idle
    pollCursor := 0
    rxDiscard := Config.noiseDiscard
    rxPos := 0
    rxBuf := Vector.replicate 5 none
    fault := none
    tx := []
    schedule := [] }

end Sys2Proof.Machine
end

