-- ==== Sys2Proof/Machine/Feedback.lean ====
section
/-! DEFINITION. The Feedback Encoder (spec/43_feedback.md; R70): the four feedback frames and their bytes, and
the reading of a frame by the Host (R168). -/

namespace Sys2Proof.Machine

/-- The four feedback kinds (R70). -/
inductive Kind where
  | acknowledge
  | terminate
  | variable
  | tracking
deriving DecidableEq, Repr

/-- A feedback frame, as R75 writes it: ACK(id), TERM(id), VAR(index, P), TRK(P). -/
inductive Feedback where
  | ack (id : Nibble)
  | term (id : Nibble)
  | var (index : Nibble) (pattern : Bits32)
  | trk (pattern : Bits32)
deriving DecidableEq, Repr

/-- The parameters of the feedback layout: the kind codes and TRACK_NIBBLE (00_scope.md). -/
structure FeedbackCodes where
  ack : Nibble
  term : Nibble
  var : Nibble
  track : Nibble
  trackNibble : Nibble
deriving DecidableEq, Repr

/-- The block's own codes: free but for being pairwise distinct (R71; entry 4). -/
def feedbackCodes : FeedbackCodes :=
  { ack := Config.kindCoding 0
    term := Config.kindCoding 1
    var := Config.kindCoding 2
    track := Config.kindCoding 3
    trackNibble := Config.trackNibble }

/-- The kind of a feedback frame (R70). -/
def Feedback.kind : Feedback → Kind
  | .ack _ => .acknowledge
  | .term _ => .terminate
  | .var _ _ => .variable
  | .trk _ => .tracking

/-- The code of a kind (R70). -/
def FeedbackCodes.code (k : FeedbackCodes) : Kind → Nibble
  | .acknowledge => k.ack
  | .terminate => k.term
  | .variable => k.var
  | .tracking => k.track

/-- The low nibble of the first byte: the order id, the variable index, or TRACK_NIBBLE (R70; C3). -/
def FeedbackCodes.lowNibble (k : FeedbackCodes) : Feedback → Nibble
  | .ack id => id
  | .term id => id
  | .var index _ => index
  | .trk _ => k.trackNibble

/-- The 32-bit payload: zero padding or the pattern carried (R70). -/
def Feedback.payload : Feedback → Bits32
  | .ack _ => 0
  | .term _ => 0
  | .var _ pattern => pattern
  | .trk pattern => pattern

/-- `(kind << 4) | low`, the first byte of a feedback frame (R70). -/
def feedbackHead (kind low : Nibble) : Byte := (kind.setWidth 8 <<< 4) ||| low.setWidth 8

/-- The four bytes of a 32-bit payload, most significant first (R43, R163, R164). -/
def bigEndian32 (p : Bits32) : List Byte :=
  [p.extractLsb' 24 8, p.extractLsb' 16 8, p.extractLsb' 8 8, p.extractLsb' 0 8]

/-- The five bytes of a feedback frame under given codes (R70, R72, R161 to R164). -/
def Feedback.bytesWith (k : FeedbackCodes) (f : Feedback) : List Byte :=
  feedbackHead (k.code f.kind) (k.lowNibble f) :: bigEndian32 f.payload

/-- The five bytes of a feedback frame of this block. -/
def Feedback.bytes (f : Feedback) : List Byte := f.bytesWith feedbackCodes

/-- TRACK_SAMPLE(i): sample 0 is exactly 0 in every configuration (R165, V46), the others are free (entry 5). -/
def trackSample (i : Nat) : Bits32 := if i = 0 then 0 else Config.trackTable i

/-- What the Host reads from five bytes of tx: the kind from the high nibble of the first byte, which the
distinct codes make unambiguous (R168, R71); bytes of no kind or with a wrong fixed part spell none. -/
def readFeedback (k : FeedbackCodes) (b0 b1 b2 b3 b4 : Byte) : Option Feedback :=
  let code := b0.extractLsb' 4 4
  let low := b0.extractLsb' 0 4
  let payload := b1 ++ b2 ++ b3 ++ b4
  if code = k.ack then (if payload = 0 then some (.ack low) else none)
  else if code = k.term then (if payload = 0 then some (.term low) else none)
  else if code = k.var then some (.var low payload)
  else if code = k.track then (if low = k.trackNibble then some (.trk payload) else none)
  else none

end Sys2Proof.Machine
end

