-- ==== Sys2Proof/Machine/Operands.lean ====
section
/-! DEFINITION. The operand forms of the orders (R65): a flag, a motor id, an argument by its parameter, the
float pattern; and the readings as_int16, as_f32 of spec/00_scope.md, which change no bit (R5). -/

namespace Sys2Proof.Machine

/-- `b2bool` of the notation: 0 is false, 1 to 15 are true (R110, R121, D7). -/
def b2bool (n : Nibble) : Bool := n != 0

/-- `zext_8` of a complement used as a motor id (R114, R115, R118). -/
def zext8 (n : Nibble) : Byte := n.setWidth 8

/-- The argument MV_SRC or MT_SRC names (00_scope.md; D9, D10). -/
def selectArg (sel : ArgSel) (arg0 arg1 : Bits16) : Bits16 :=
  match sel with
  | .arg0 => arg0
  | .arg1 => arg1

/-- `(arg0 << 16) | arg1`, the pattern of floatArg (R64, R93). -/
def floatBits (arg0 arg1 : Bits16) : Bits32 := (arg0.setWidth 32 <<< 16) ||| arg1.setWidth 32

/-- `as_int16`: the two's-complement reading, as the notation of 00_scope.md writes it. -/
def asInt16 (v : Bits16) : Int := if v.toNat < 0x8000 then v.toNat else (v.toNat : Int) - 0x10000

/-- The two's-complement reading of an 8-bit register, `int8` of R18. -/
def asInt8 (v : Byte) : Int := if v.toNat < 0x80 then v.toNat else (v.toNat : Int) - 0x100

/-- A binary32 value: what a pattern spells (entry 14). A finite value is (-1)^negative * significand * 2^exponent. -/
inductive F32 where
  | finite (negative : Bool) (significand : Nat) (exponent : Int)
  | infinity (negative : Bool)
  | nan (negative : Bool) (payload : BitVec 23)
deriving DecidableEq, Repr

/-- `as_f32`: the binary32 reading of a pattern (00_scope.md, R5, R64). No meaning uses it: the block stores and
moves patterns only (R14). The field layout of binary32 is from outside the spec (PRESUMED, entry 14). -/
def asF32 (v : Bits32) : F32 :=
  let negative := v[31]
  let biased := (v.extractLsb' 23 8).toNat
  let fraction := v.extractLsb' 0 23
  if biased = 255 then
    (if fraction = 0 then .infinity negative else .nan negative fraction)
  else if biased = 0 then .finite negative fraction.toNat (-149)
  else .finite negative (fraction.toNat + 2 ^ 23) ((biased : Int) - 150)

end Sys2Proof.Machine
end

