-- ==== Sys2Proof/Machine/Ops.lean ====
section
/-! DEFINITION. The named operations on the state: the register files, the slots, the transmit stream, raising
a fault and the reset that alone leaves it, and the output ports. -/

namespace Sys2Proof.Machine

/-- `vars[i]` (R14): every index exists. -/
def readVar (i : Nibble) (s : State) : Bits32 := s.vars[i.toNat]'(i.isLt)

/-- `vars[i] <- p` (R14): all 32 bits stored unchanged. -/
def writeVar (i : Nibble) (p : Bits32) (s : State) : State :=
  { s with vars := s.vars.set i.toNat p i.isLt }

/-- `slot[i]` (R25). -/
def readSlot (i : Nibble) (s : State) : Slot := s.slot[i.toNat]'(i.isLt)

/-- `install(i, k)`: overwrites whatever the slot held, emits nothing (R142). -/
def install (i : Nibble) (k : Slot) (s : State) : State :=
  { s with slot := s.slot.set i.toNat k i.isLt }

/-- Retire a slot: it returns to Idle (R113, R144). -/
def retire (i : Nibble) (s : State) : State := install i .idle s

/-- `Emit`: the five bytes of one feedback frame, appended as a unit (R160). -/
def emit (f : Feedback) (s : State) : State := { s with tx := s.tx ++ f.bytes }

/-- `EmitAck(id)` (R95, R161). -/
def emitAck (id : Nibble) (s : State) : State := emit (.ack id) s

/-- `EmitTerm(id)` (R162). -/
def emitTerm (id : Nibble) (s : State) : State := emit (.term id) s

/-- `EmitVar(i, p)` (R163). -/
def emitVar (i : Nibble) (p : Bits32) (s : State) : State := emit (.var i p) s

/-- `EmitTrack(p)` (R164). -/
def emitTrack (p : Bits32) (s : State) : State := emit (.trk p) s

/-- The tracking burst: samples 0 to TRACK_COUNT - 1 in ascending order (R114, R165). -/
def streamTracking (s : State) : State :=
  (List.range Config.trackCount).foldl (fun t i => emitTrack (trackSample i) t) s

/-- Open a selection of `count` motors: the count and the length are loaded, the old list is released (R117). -/
def openSelection (count : Nibble) (s : State) : State :=
  { s with pendCount := count, pendLen := count, pendIDs := Vector.replicate 15 none }

/-- `pendIDs[pendCount - 1] <- id`, then the count goes down by one; meant for pendCount ≠ 0 (R118). -/
def fillPending (id : Byte) (s : State) : State :=
  { s with
    pendIDs := s.pendIDs.setIfInBounds (s.pendCount.toNat - 1) (some id)
    pendCount := s.pendCount - 1 }

/-- `raise Fault(code)`: the latch takes the code, and nothing else changes (R181, R186; entry 6). -/
def raiseFault (code : FaultCode) (s : State) : State := { s with fault := some code }

/-- The number of a fault code (R180). -/
def FaultCode.number : FaultCode → Nat
  | .motorsArgUnderflow => 1

/-- The Host resets the block: every field of the spec takes its reset value (R200), which is also the only way
out of a fault (R187). The environment's coming moves are no part of the block and stay (entry 3). -/
def powerUp (s : State) : State := { State.reset with schedule := s.schedule }

/-- The live pending list: entries 0 to pendLen - 1 (R24). -/
def livePending (s : State) : List (Option Byte) := s.pendIDs.toList.take s.pendLen.toNat

/-- The output ports (R33): each shows its field's current value. -/
structure Ports where
  lidarStopped : Bool
  tracking : Bool
  tickTarget : Bits16
  motorID : Byte
  motorValue : Bits16
  motorTime : Bits16
  pumpBitmask : Bits16
  pendLen : Nibble
  pendIDs : Vector (Option Byte) 15
deriving DecidableEq, Repr

/-- What the output ports show in a state between steps (R33, R51): each its whole field. An entry `none` of the
list has no defined reading (R24; entry 8). -/
def ports (s : State) : Ports :=
  { lidarStopped := s.lidarStopped
    tracking := s.tracking
    tickTarget := s.tickTarget
    motorID := s.motorID
    motorValue := s.motorValue
    motorTime := s.motorTime
    pumpBitmask := s.pumpBitmask
    pendLen := s.pendLen
    pendIDs := s.pendIDs }

end Sys2Proof.Machine
end

