-- ==== Sys2Proof/Machine/Flags.lean ====
section
/-! DEFINITION. The two flags of the Actuator State and how orders write and continuations read them (R15, R16). -/

namespace Sys2Proof.Machine

/-- `lidarStopped <- b2bool(complement)` (R110). -/
def setLidarStopped (complement : Nibble) (s : State) : State :=
  { s with lidarStopped := b2bool complement }

/-- `tracking <- b2bool(complement)` (R121). -/
def setTracking (complement : Nibble) (s : State) : State :=
  { s with tracking := b2bool complement }

/-- The one condition a continuation observes, read at each evaluation (R143, R146; C2: taken literally). -/
def lidarRuns (s : State) : Bool := !s.lidarStopped

end Sys2Proof.Machine
end

