-- ==== Sys2Proof/Machine/Poller.lean ====
section
/-! DEFINITION. The Poller's step (spec/42_completion.md): evaluate the slot under the cursor, move the cursor. -/

namespace Sys2Proof.Machine

/-- A continuation fires: it emits TERM(target) and its slot retires (R144, R148). -/
def fire (i target : Nibble) (s : State) : State := retire i (emitTerm target s)

/-- Evaluate(i) of R144. -/
def evaluate (i : Nibble) (s : State) : State :=
  match readSlot i s with
  | .idle => s
  | .awaitLidarRun target => if lidarRuns s then fire i target s else s
  | .fireNext target => fire i target s

/-- The cursor walks 0 to 15 and wraps (R141). -/
def advanceCursor (s : State) : State := { s with pollCursor := s.pollCursor + 1 }

/-- PollStep() of R141: no step while the latch is set. -/
def pollStep (s : State) : Host.Outcome State Fault Refusal :=
  match s.fault with
  | some code => .fault (.stopped code)
  | none => .next (advanceCursor (evaluate s.pollCursor s))

end Sys2Proof.Machine
end

