-- ==== Sys2Proof/Machine/Motion.lean ====
section
/-! DEFINITION. The handlers of lidar-toggle, move, rotate and cancel-move (spec/41_orders.md, ids 0 to 3). -/

namespace Sys2Proof.Machine

/-- lidar-toggle (R110); arg0 and arg1 are ignored. -/
def execLidarToggle (complement : Nibble) (_arg0 _arg1 : Bits16) (s : State) :
    Host.Outcome State Fault Refusal :=
  .next (emitTerm 0 (setLidarStopped complement s))

/-- `tickTarget <- target`, 16 bits copied: move and rotate share the register (R17, R111, R112, D8). -/
def captureTarget (target : Bits16) (s : State) : State := { s with tickTarget := target }

/-- move (R111); the complement and arg0 are ignored. -/
def execMove (_complement : Nibble) (_arg0 arg1 : Bits16) (s : State) :
    Host.Outcome State Fault Refusal :=
  .next (install 1 (.awaitLidarRun 1) (captureTarget arg1 s))

/-- rotate (R112); the complement and arg0 are ignored. -/
def execRotate (_complement : Nibble) (_arg0 arg1 : Bits16) (s : State) :
    Host.Outcome State Fault Refusal :=
  .next (install 2 (.awaitLidarRun 2) (captureTarget arg1 s))

/-- cancel-move (R113): retires slots 1 and 2 whatever they hold; tickTarget stays. -/
def execCancelMove (_complement : Nibble) (_arg0 _arg1 : Bits16) (s : State) :
    Host.Outcome State Fault Refusal :=
  .next (emitTerm 3 (retire 2 (retire 1 s)))

end Sys2Proof.Machine
end

