-- ==== Sys2Proof/Machine/Motors.lean ====
section
/-! DEFINITION. The handlers of motor-value, motor-time, pumps, motors and motors-arg (spec/41_orders.md, ids 4 to 8). -/

namespace Sys2Proof.Machine

/-- The burst of a tracked motor-value; without the flag, nothing (R114). -/
def burstIfTracking (s : State) : State := if s.tracking then streamTracking s else s

/-- The captures of motor-value: id and value (R114; D9). -/
def captureValue (id : Byte) (value : Bits16) (s : State) : State :=
  { s with motorID := id, motorValue := value }

/-- The captures of motor-time: id and time (R115; D10). -/
def captureTime (id : Byte) (time : Bits16) (s : State) : State :=
  { s with motorID := id, motorTime := time }

/-- `pumpBitmask <- mask` (R116). -/
def setPumps (mask : Bits16) (s : State) : State := { s with pumpBitmask := mask }

/-- motor-value (R114): the burst comes before the captures and the install (D28); the argument is MV_SRC's. -/
def execMotorValue (complement : Nibble) (arg0 arg1 : Bits16) (s : State) :
    Host.Outcome State Fault Refusal :=
  .next (install 4 (.fireNext 4)
    (captureValue (zext8 complement) (selectArg Config.mvSrc arg0 arg1) (burstIfTracking s)))

/-- motor-time (R115): never a burst; the argument is MT_SRC's. -/
def execMotorTime (complement : Nibble) (arg0 arg1 : Bits16) (s : State) :
    Host.Outcome State Fault Refusal :=
  .next (install 5 (.fireNext 5)
    (captureTime (zext8 complement) (selectArg Config.mtSrc arg0 arg1) s))

/-- pumps (R116): all 16 bits are stored. -/
def execPumps (_complement : Nibble) (_arg0 arg1 : Bits16) (s : State) :
    Host.Outcome State Fault Refusal :=
  .next (emitTerm 6 (setPumps arg1 s))

/-- motors (R117): opens a selection, abandoning an unfinished one (D13); slot 7 is not touched. -/
def execMotors (complement : Nibble) (_arg0 _arg1 : Bits16) (s : State) :
    Host.Outcome State Fault Refusal :=
  .next (openSelection complement s)

/-- The MOTORS continuation is installed when the count has reached 0 (R118, D11). -/
def installIfFilled (s : State) : State :=
  if s.pendCount = 0 then install Config.motorsSlot (.fireNext Config.motorsSlot) s else s

/-- motors-arg (R118): with no count left it raises MOTORS_ARG_UNDERFLOW and writes nothing else (R182; entry 6);
else it fills the list from the top down. -/
def execMotorsArg (complement : Nibble) (_arg0 _arg1 : Bits16) (s : State) :
    Host.Outcome State Fault Refusal :=
  if s.pendCount = 0 then .next (raiseFault .motorsArgUnderflow s)
  else .next (installIfFilled (fillPending (zext8 complement) s))

end Sys2Proof.Machine
end

