-- ==== Sys2Proof/Machine/Reserved.lean ====
section
/-! DEFINITION. The handlers of the reserved ids 12 to 15 (spec/41_orders.md, R122 to R125): explicit no-ops. -/

namespace Sys2Proof.Machine

/-- reserved-12 (R122): no state change, no feedback of its own. -/
def execReserved12 (_complement : Nibble) (_arg0 _arg1 : Bits16) (s : State) :
    Host.Outcome State Fault Refusal := .next s

/-- reserved-13 (R123). -/
def execReserved13 (_complement : Nibble) (_arg0 _arg1 : Bits16) (s : State) :
    Host.Outcome State Fault Refusal := .next s

/-- reserved-14 (R124). -/
def execReserved14 (_complement : Nibble) (_arg0 _arg1 : Bits16) (s : State) :
    Host.Outcome State Fault Refusal := .next s

/-- reserved-15 (R125). -/
def execReserved15 (_complement : Nibble) (_arg0 _arg1 : Bits16) (s : State) :
    Host.Outcome State Fault Refusal := .next s

end Sys2Proof.Machine
end

