-- ==== Sys2Proof/Machine/Variables.lean ====
section
/-! DEFINITION. The handlers of set-var, get-var and track (spec/41_orders.md, ids 9 to 11). -/

namespace Sys2Proof.Machine

/-- set-var (R119): all 32 bits of the float argument's pattern are stored. -/
def execSetVar (complement : Nibble) (arg0 arg1 : Bits16) (s : State) :
    Host.Outcome State Fault Refusal :=
  .next (emitTerm 9 (writeVar complement (floatBits arg0 arg1) s))

/-- get-var (R120): VARIABLE, then TERMINATE. -/
def execGetVar (complement : Nibble) (_arg0 _arg1 : Bits16) (s : State) :
    Host.Outcome State Fault Refusal :=
  .next (emitTerm 10 (emitVar complement (readVar complement s) s))

/-- track (R121); arg0 and arg1 are ignored. -/
def execTrack (complement : Nibble) (_arg0 _arg1 : Bits16) (s : State) :
    Host.Outcome State Fault Refusal :=
  .next (emitTerm 11 (setTracking complement s))

end Sys2Proof.Machine
end

