-- ==== Sys2Proof/Machine/Dispatch.lean ====
section
/-! DEFINITION. Dispatch(o) of R96: the closed match of an order to its handler. -/

namespace Sys2Proof.Machine

/-- The handler of an order, run on the state in which the order is already acknowledged (R92, R96; entry 16). -/
def exec (i : Instr) (s : State) : Host.Outcome State Fault Refusal :=
  match i with
  | .lidarToggle c a b => Sys2Proof.Machine.execLidarToggle c a b s
  | .move c a b => Sys2Proof.Machine.execMove c a b s
  | .rotate c a b => Sys2Proof.Machine.execRotate c a b s
  | .cancelMove c a b => Sys2Proof.Machine.execCancelMove c a b s
  | .motorValue c a b => Sys2Proof.Machine.execMotorValue c a b s
  | .motorTime c a b => Sys2Proof.Machine.execMotorTime c a b s
  | .pumps c a b => Sys2Proof.Machine.execPumps c a b s
  | .motors c a b => Sys2Proof.Machine.execMotors c a b s
  | .motorsArg c a b => Sys2Proof.Machine.execMotorsArg c a b s
  | .setVar c a b => Sys2Proof.Machine.execSetVar c a b s
  | .getVar c a b => Sys2Proof.Machine.execGetVar c a b s
  | .track c a b => Sys2Proof.Machine.execTrack c a b s
  | .reserved12 c a b => Sys2Proof.Machine.execReserved12 c a b s
  | .reserved13 c a b => Sys2Proof.Machine.execReserved13 c a b s
  | .reserved14 c a b => Sys2Proof.Machine.execReserved14 c a b s
  | .reserved15 c a b => Sys2Proof.Machine.execReserved15 c a b s

end Sys2Proof.Machine
end

