-- ==== Sys2Proof/Machine/Receive.lean ====
section
/-! DEFINITION. The RX engine's step (spec/40_receive.md): discard, assemble, and on a complete frame decode,
acknowledge, dispatch. -/

namespace Sys2Proof.Machine

/-- ProcessFrame of R92: decode, acknowledge, then the handler, in the step that accepted the fifth byte. -/
def processFrame (f : Frame) (s : State) : Host.Outcome State Fault Refusal :=
  exec (decodeFrame f) (emitAck (decodeOrder f).id s)

/-- The five bytes of the buffer, if each entry holds one (R30). -/
def bufferedFrame (s : State) : Option Frame :=
  match s.rxBuf[0], s.rxBuf[1], s.rxBuf[2], s.rxBuf[3], s.rxBuf[4] with
  | some b0, some b1, some b2, some b3, some b4 => some ⟨b0, b1, b2, b3, b4⟩
  | _, _, _, _, _ => none

/-- `rx_buf[rx_pos] <- b` (R91). -/
def storeByte (b : Byte) (s : State) : State :=
  { s with rxBuf := s.rxBuf.set s.rxPos.val (some b) s.rxPos.isLt }

/-- `rx_discard <- rx_discard - 1` (R90). -/
def discardByte (s : State) : State := { s with rxDiscard := s.rxDiscard - 1 }

/-- `rx_pos <- rx_pos + 1` (R91). -/
def advancePosition (s : State) : State := { s with rxPos := s.rxPos + 1 }

/-- `rx_pos <- 0` (R91). -/
def resetPosition (s : State) : State := { s with rxPos := 0 }

/-- Assemble(b) of R91. The frame is complete at position 4; before that the partial frame persists. -/
def assembleByte (b : Byte) (s : State) : Host.Outcome State Fault Refusal :=
  if s.rxPos = 4 then
    let full := resetPosition (storeByte b s)
    match bufferedFrame full with
    | some f => processFrame f full
    | none => .refused .frameByteHasNoValue
  else .next (advancePosition (storeByte b s))

/-- RxStep(b) of R90: no step while the latch is set; a noise byte is discarded with no other effect. -/
def rxStep (b : Byte) (s : State) : Host.Outcome State Fault Refusal :=
  match s.fault with
  | some code => .fault (.stopped code)
  | none =>
    if 0 < s.rxDiscard then .next (discardByte s)
    else assembleByte b s

/-- The block about to accept the last byte of a frame: the noise is past, the first four bytes are held, and the
Host's next move offers the fifth (entry 11). -/
def placeFrame (f : Frame) (s : State) : State :=
  { s with
    rxDiscard := 0
    rxPos := 4
    rxBuf := #v[some f.byte0, some f.byte1, some f.byte2, some f.byte3, s.rxBuf[4]]
    schedule := .rx f.byte4 :: s.schedule }

end Sys2Proof.Machine
end

