-- ==== Sys2Proof/Machine/Agents.lean ====
section
/-! DEFINITION. Which agent moves next (R10, R185), and what its move does. -/

namespace Sys2Proof.Machine

/-- The next move: the schedule's head; with nothing scheduled no byte is offered, so that only the Poller has a
step (R90, R150; entries 1 and 2). -/
def nextMove (s : State) : Move :=
  match s.schedule with
  | [] => .poll
  | m :: _ => m

/-- The state with the next move taken off the schedule. -/
def dropMove (s : State) : State := { s with schedule := s.schedule.tail }

/-- One whole, atomic move (R47, R49). -/
def takeMove (m : Move) (s : State) : Host.Outcome State Fault Refusal :=
  match m with
  | .rx b => rxStep b s
  | .poll => pollStep s
  | .reset => .next (powerUp s)

end Sys2Proof.Machine
end

