-- ==== Sys2Proof/Machine/Step.lean ====
section
/-! DEFINITION. One step of the block, and the placing of an opcode-table word where the next step runs it. -/

namespace Sys2Proof.Machine

/-- One agent step (R10, R49): the next move is taken off the schedule and made. -/
def step (s : State) : Host.Outcome State Fault Refusal := takeMove (nextMove s) (dropMove s)

/-- `s` with the frame of an opcode-table word received but for its last byte, which the next step accepts
(entries 11 and 12). -/
def State.withFetchWord (s : State) (nbits w : Nat) : State := placeFrame (frameOfTableWord nbits w) s

end Sys2Proof.Machine
end

