-- ==== Sys2Proof/Safety.lean ====
section
/-! DEFINITION. What claims about the block speak of: the bytes of a list of feedback frames, the feedback each
order owes (R166), the order a step dispatches, runs of orders, and the invariants of a state. -/

namespace Sys2Proof.Machine

/-- The bytes of feedback frames sent one after the other (R50, R160). -/
def framesBytes (fs : List Feedback) : List Byte := fs.flatMap Feedback.bytes

/-- The 500 frames of a tracking burst, samples in ascending order (R114, R165). -/
def trackingBurst : List Feedback := (List.range 500).map fun i => .trk (trackSample i)

/-- The frames an order's handler emits in its RX step after the ACK: the third column of R166's table. -/
def handlerFeedback (i : Instr) (s : State) : List Feedback :=
  match i with
  | .lidarToggle _ _ _ => [.term 0]
  | .move _ _ _ => []
  | .rotate _ _ _ => []
  | .cancelMove _ _ _ => [.term 3]
  | .motorValue _ _ _ => if s.tracking then trackingBurst else []
  | .motorTime _ _ _ => []
  | .pumps _ _ _ => [.term 6]
  | .motors _ _ _ => []
  | .motorsArg _ _ _ => []
  | .setVar _ _ _ => [.term 9]
  | .getVar c _ _ => [.var c (readVar c s), .term 10]
  | .track _ _ _ => [.term 11]
  | .reserved12 _ _ _ => []
  | .reserved13 _ _ _ => []
  | .reserved14 _ _ _ => []
  | .reserved15 _ _ _ => []

/-- The order the next step dispatches, if it dispatches one: the block is not stopped, the Host offers a byte,
the noise is past, and the byte is the fifth of a frame (R90, R91, R92). -/
def arrivingOrder (s : State) : Option Instr :=
  match s.fault, nextMove s with
  | none, .rx b =>
    if s.rxDiscard = 0 ∧ s.rxPos = 4 then (bufferedFrame (storeByte b s)).map decodeFrame else none
  | _, _ => none

/-- Handlers run one after the other, stopping where one stops. -/
def execAll : List Instr → State → Host.Outcome State Fault Refusal
  | [], s => .next s
  | i :: rest, s =>
    match exec i s with
    | .next t => execAll rest t
    | .fault r => .fault r
    | .refused r => .refused r

/-- `n` steps, stopping at the first fault or refusal: Host.Core.run at this machine's own types. -/
def runSteps : Nat → State → Host.Outcome State Fault Refusal
  | 0, s => .next s
  | n + 1, s =>
    match step s with
    | .next t => runSteps n t
    | .fault r => .fault r
    | .refused r => .refused r

/-- Every scheduled move is the Poller's: no byte is offered and no reset comes. -/
abbrev OnlyPolls (s : State) : Prop := ∀ m ∈ s.schedule, m = Move.poll

/-- The next step does none of the things that end the hold of a pending motion: it is no reset, and it dispatches
neither a lidar-toggle that clears the flag nor a cancel-move (R113, R146, R212). -/
abbrev LeavesMotionHeld (s : State) : Prop :=
  nextMove s ≠ .reset ∧ (∀ c a b, arrivingOrder s = some (.lidarToggle c a b) → c ≠ 0) ∧
    ∀ c a b, arrivingOrder s ≠ some (.cancelMove c a b)

/-- The frame an evaluated slot emits, if it fires (R144). -/
def firing (lidarStopped : Bool) : Slot → List Feedback
  | .idle => []
  | .awaitLidarRun target => if lidarStopped then [] else [.term target]
  | .fireNext target => [.term target]

/-- What an evaluation leaves in the slot (R144, R148). -/
def afterEvaluation (lidarStopped : Bool) : Slot → Slot
  | .idle => .idle
  | .awaitLidarRun target => if lidarStopped then .awaitLidarRun target else .idle
  | .fireNext _ => .idle

/-- The discard counter is in its range (R28), and no frame is begun while noise remains (R90). -/
abbrev DiscardInRange (s : State) : Prop :=
  s.rxDiscard ≤ Config.noiseDiscard ∧ (0 < s.rxDiscard → s.rxPos = 0)

/-- The bytes of the current frame are held (R29, R30). -/
abbrev FrameHeld (s : State) : Prop := ∀ k : Fin 5, k < s.rxPos → (s.rxBuf[k]).isSome = true

/-- The continuations a slot may hold: the table of R143; all other slots are always Idle (R126). -/
def legalSlot (i : Nibble) (k : Slot) : Bool :=
  k == .idle || (i == 1 && k == .awaitLidarRun 1) || (i == 2 && k == .awaitLidarRun 2) ||
    (i == 4 && k == .fireNext 4) || (i == 5 && k == .fireNext 5) || (i == 7 && k == .fireNext 7)

/-- Every slot holds a continuation of its own (R126, R143). -/
abbrev SlotsLegal (s : State) : Prop := ∀ i : Nibble, legalSlot i (readSlot i s) = true

/-- The pending list is filled from the top down to the count, and nowhere else (R22, R23, R24, R117, R118). -/
abbrev SelectionLegal (s : State) : Prop :=
  s.pendCount.toNat ≤ s.pendLen.toNat ∧
    ∀ k : Fin 15, (s.pendIDs[k]).isSome = true ↔ s.pendCount.toNat ≤ k.val ∧ k.val < s.pendLen.toNat

/-- Motor ids come from 4-bit complements: 0 to 15 (R18, R24). -/
abbrev MotorIdsSmall (s : State) : Prop :=
  s.motorID.toNat < 16 ∧ ∀ k : Fin 15, ∀ v, s.pendIDs[k] = some v → v.toNat < 16

/-- The transmit stream is a sequence of whole feedback frames (R32, R160). -/
def TxFramed (s : State) : Prop := ∃ fs : List Feedback, s.tx = framesBytes fs

/-- A stopped block stopped at a motors-arg with no count left, acknowledged as its last frame (R182). -/
def FaultExplained (s : State) : Prop :=
  s.fault ≠ none → s.pendCount = 0 ∧ ∃ fs : List Feedback, s.tx = framesBytes (fs ++ [.ack 8])

/-- The invariant of the block. -/
structure Inv (s : State) : Prop where
  discard : DiscardInRange s
  frame : FrameHeld s
  slots : SlotsLegal s
  selection : SelectionLegal s
  motorIds : MotorIdsSmall s
  tx : TxFramed s
  stopped : FaultExplained s

/-- A run is safe when it never stops: no fault latched, no fault, no refusal (R181, R203). -/
def Running (s : State) : Prop := s.fault = none

end Sys2Proof.Machine
end

