-- ==== Sys2Proof/Certificates/Slice0/Obligations.lean ====
section
/-! DEFINITION. The statements for the provers, each from a numbered rule of spec/ or the sections its docstring
names. Where a clause rests on a decision of the spec (D<n>) or on an entry of the model's log, the docstring
says so. -/

open Sys2Proof Sys2Proof.Machine

/-! ### Reset -/

/-- R13: every variable holds the pattern of 1.0 at reset, and the sixteen entries are separate registers. -/
def Obligations.VariableStoreResetsToOneAndHasNoAliases : Prop :=
  (∀ i : Nibble, readVar i State.reset = 0x3F800000) ∧
    ∀ (i j : Nibble) (p : Bits32) (s : State),
      readVar i (writeVar j p s) = if i = j then p else readVar i s

/-- The reset values that are the spec's own decisions (D5, D6, D15, D18, D26, D29, D31), and the Idle slots. -/
def Obligations.ResetLeavesTheDecidedValues : Prop :=
  (∀ i : Nibble, readSlot i State.reset = .idle) ∧
    State.reset.lidarStopped = false ∧ State.reset.tracking = false ∧ State.reset.tickTarget = 0 ∧
    State.reset.motorID = 0 ∧ State.reset.motorValue = 0 ∧ State.reset.motorTime = 0 ∧
    State.reset.pumpBitmask = 0 ∧ State.reset.pendCount = 0 ∧ State.reset.pendLen = 0 ∧
    (∀ k : Fin 15, State.reset.pendIDs[k] = none) ∧ State.reset.pollCursor = 0 ∧
    State.reset.rxDiscard = 3 ∧ State.reset.rxPos = 0 ∧ (∀ k : Fin 5, State.reset.rxBuf[k] = none) ∧
    State.reset.fault = none ∧ State.reset.tx = []

/-- R54, R200 (entry 3 for the schedule): a reset move puts every field of the spec back, whatever the state,
a latched fault included. -/
def Obligations.ResetMoveRestoresTheResetState : Prop :=
  ∀ (s : State) (rest : List Move), s.schedule = .reset :: rest →
    step s = .next { State.reset with schedule := rest }

/-! ### Encoding -/

/-- R61, R62, R63: the fields of a decoded frame, as numbers. -/
def Obligations.DecodeReadsTheFrameFields : Prop :=
  ∀ f : Frame,
    (decodeFrame f).id.toNat = f.byte0.toNat / 16 ∧
    (decodeFrame f).complement.toNat = f.byte0.toNat % 16 ∧
    (decodeFrame f).arg0.toNat = 256 * f.byte1.toNat + f.byte2.toNat ∧
    (decodeFrame f).arg1.toNat = 256 * f.byte3.toNat + f.byte4.toNat

/-- R93: the decoded order carries the same five fields, and floatBits is arg0 : arg1, the four argument bytes from
most to least significant (R42). -/
def Obligations.DecodedOrderHasTheFloatPattern : Prop :=
  ∀ f : Frame,
    (decodeOrder f).id = (decodeFrame f).id ∧ (decodeOrder f).complement = (decodeFrame f).complement ∧
    (decodeOrder f).arg0 = (decodeFrame f).arg0 ∧ (decodeOrder f).arg1 = (decodeFrame f).arg1 ∧
    (decodeOrder f).floatBits = (decodeFrame f).arg0 ++ (decodeFrame f).arg1 ∧
    (decodeOrder f).floatBits = f.byte1 ++ f.byte2 ++ f.byte3 ++ f.byte4 ∧
    floatBits (decodeFrame f).arg0 (decodeFrame f).arg1 = (decodeOrder f).floatBits

/-- Decode and encode agree, both ways: every order at every value of its fields, and every frame (the encoding
side is R73, a decision D21 of the spec). -/
def Obligations.DecodeAndEncodeAgree : Prop :=
  (∀ (i : Instr) (rest : List Byte), decode (encode i ++ rest) = .ok (i, rest)) ∧
    ∀ f : Frame, encodeFrame (decodeFrame f) = f

/-- R67, R69: any five bytes are an order, whatever follows; only an incomplete frame is none. -/
def Obligations.ExactlyTheCompleteFramesDecode : Prop :=
  ∀ bs : List Byte,
    (5 ≤ bs.length → ∃ i, decode bs = .ok (i, bs.drop 5) ∧ encode i = bs.take 5) ∧
    (bs.length < 5 → decode bs = .error (.incompleteFrame bs.length))

/-- R60, R66: the frame word of an order, with byte0 in bits 39 to 32, is read back as that order, and its id is
bits 39 to 36 (the numbering of the table's words is entry 12). -/
def Obligations.TableWordsDecodeToTheirOrder : Prop :=
  ∀ i : Instr, decodeTableWord 40 (encodeFrame i).word.toNat = some i ∧
    (encodeFrame i).word.toNat / 2 ^ 36 = i.id.toNat

/-- Words written out from R60, R66 and the vectors V6 to V10, W1 and W2. -/
def Obligations.SampleFramesDecode : Prop :=
  decodeFrame ⟨0x00, 0x00, 0x00, 0x00, 0x00⟩ = .lidarToggle 0 0 0 ∧
  decodeFrame ⟨0x1C, 0x12, 0x34, 0x80, 0x00⟩ = .move 12 0x1234 0x8000 ∧
  decodeFrame ⟨0x42, 0x00, 0x00, 0x01, 0xF4⟩ = .motorValue 2 0 0x01F4 ∧
  decodeFrame ⟨0x90, 0x3F, 0x80, 0x00, 0x00⟩ = .setVar 0 0x3F80 0 ∧
  decodeFrame ⟨0xA7, 0x00, 0x00, 0x00, 0x00⟩ = .getVar 7 0 0 ∧
  decodeFrame ⟨0xFF, 0xFF, 0xFF, 0xFF, 0xFF⟩ = .reserved15 15 0xFFFF 0xFFFF

/-- R73 (D21): a well-formed line of the notation assembles to the order of its mnemonic with its operands, the
omitted ones 0; an ill-formed line assembles to nothing. -/
def Obligations.WellFormedLinesAssemble : Prop :=
  ∀ l : AsmLine, (l.wellFormed = true → ∃ i, assemble l = some i ∧ i.id = l.mnemonic.id ∧
      i.complement.toNat = l.operands.getD 0 0 ∧ i.arg0.toNat = l.operands.getD 1 0 ∧
      i.arg1.toNat = l.operands.getD 2 0) ∧
    (l.wellFormed = false → assemble l = none)

/-- R74 (D21): the order each pseudo-order stands for: move.t and rotate.t carry a pattern that reads as the signed
operand, set-var.f one whose halves are the float's pattern. -/
def Obligations.PseudoOrdersExpandAsTabled : Prop :=
  PseudoOrder.lidarStop.assemble = some (.lidarToggle 1 0 0) ∧
  PseudoOrder.lidarRun.assemble = some (.lidarToggle 0 0 0) ∧
  PseudoOrder.trackOn.assemble = some (.track 1 0 0) ∧
  PseudoOrder.trackOff.assemble = some (.track 0 0 0) ∧
  (∀ t : Int, -32768 ≤ t → t ≤ 32767 →
    ∃ v, (PseudoOrder.moveT t).assemble = some (.move 0 0 v) ∧
      (PseudoOrder.rotateT t).assemble = some (.rotate 0 0 v) ∧ asInt16 v = t) ∧
  (∀ (c : Nibble) (p : Bits32), ∃ a b, (PseudoOrder.setVarF c.toNat p.toNat).assemble = some (.setVar c a b) ∧
      a ++ b = p ∧ (PseudoOrder.getVar c.toNat).assemble = some (.getVar c 0 0))

/-! ### The orders: each completes, with its whole effect -/

/-- R110 (complements 2 to 15: D7): the flag, the TERMINATE, and nothing else. -/
def Obligations.LidarToggleSetsItsFlagAndTerminates : Prop :=
  ∀ (c : Nibble) (a b : Bits16) (s : State),
    exec (.lidarToggle c a b) s =
      .next { s with lidarStopped := decide (c.toNat ≠ 0), tx := s.tx ++ framesBytes [.term 0] }

/-- R111, R112 (a slot already pending is overwritten: D24): the target register both share, the continuation of
the order's own slot, no feedback, and nothing else. -/
def Obligations.MoveAndRotateCaptureAndInstall : Prop :=
  ∀ (c : Nibble) (a b : Bits16) (s : State),
    (∃ t, exec (.move c a b) s = .next t ∧ t.tickTarget = b ∧ readSlot 1 t = .awaitLidarRun 1 ∧
      (∀ j, j ≠ 1 → readSlot j t = readSlot j s) ∧ t = { s with tickTarget := b, slot := t.slot }) ∧
    (∃ t, exec (.rotate c a b) s = .next t ∧ t.tickTarget = b ∧ readSlot 2 t = .awaitLidarRun 2 ∧
      (∀ j, j ≠ 2 → readSlot j t = readSlot j s) ∧ t = { s with tickTarget := b, slot := t.slot })

/-- R113: slots 1 and 2 retire, the other slots and tickTarget stay, TERM(3), and nothing else; the frame begins
with 0x3c, and its RX step sends ACK(3), TERM(3). -/
def Obligations.CancelMoveRetiresBothMotions : Prop :=
  ∀ (c : Nibble) (a b : Bits16) (s : State),
    ∃ t, exec (.cancelMove c a b) s = .next t ∧ readSlot 1 t = .idle ∧ readSlot 2 t = .idle ∧
      (∀ j, j ≠ 1 → j ≠ 2 → readSlot j t = readSlot j s) ∧
      t = { s with slot := t.slot, tx := s.tx ++ framesBytes [.term 3] } ∧
      (encodeFrame (.cancelMove c a b)).byte0 = 0x3#4 ++ c ∧
      processFrame (encodeFrame (.cancelMove c a b)) s =
        .next { s with slot := t.slot, tx := s.tx ++ framesBytes [.ack 3, .term 3] }

/-- R114 (operands: D9; place of the burst: D28; samples: D19, entry 5): the 500 TRACKING frames exactly when
tracking, then the captures and the install, and nothing else. -/
def Obligations.MotorValueStreamsCapturesAndInstalls : Prop :=
  ∀ (c : Nibble) (a b : Bits16) (s : State),
    ∃ t, exec (.motorValue c a b) s = .next t ∧ readSlot 4 t = .fireNext 4 ∧
      (∀ j, j ≠ 4 → readSlot j t = readSlot j s) ∧
      t = { s with
        motorID := c.setWidth 8
        motorValue := b
        slot := t.slot
        tx := s.tx ++ framesBytes (if s.tracking then
          (List.range 500).map (fun i => .trk (trackSample i)) else []) }

/-- R115 (operands: D10): the captures and the install, no burst whatever tracking holds, and nothing else. -/
def Obligations.MotorTimeCapturesAndInstalls : Prop :=
  ∀ (c : Nibble) (a b : Bits16) (s : State),
    ∃ t, exec (.motorTime c a b) s = .next t ∧ readSlot 5 t = .fireNext 5 ∧
      (∀ j, j ≠ 5 → readSlot j t = readSlot j s) ∧
      t = { s with motorID := c.setWidth 8, motorTime := b, slot := t.slot }

/-- R116: all 16 bits stored, TERM(6), and nothing else; the frame begins with 0x6c, and its RX step sends ACK(6),
TERM(6). -/
def Obligations.PumpsStoresTheBitmaskAndTerminates : Prop :=
  ∀ (c : Nibble) (a b : Bits16) (s : State),
    exec (.pumps c a b) s = .next { s with pumpBitmask := b, tx := s.tx ++ framesBytes [.term 6] } ∧
    (encodeFrame (.pumps c a b)).byte0 = 0x6#4 ++ c ∧
    processFrame (encodeFrame (.pumps c a b)) s =
      .next { s with pumpBitmask := b, tx := s.tx ++ framesBytes [.ack 6, .term 6] }

/-- R117 (restart of an open selection: D13): the count and the length loaded, every entry released, no feedback,
and nothing else; slot 7 is not touched. -/
def Obligations.MotorsOpensASelection : Prop :=
  ∀ (c : Nibble) (a b : Bits16) (s : State),
    ∃ t, exec (.motors c a b) s = .next t ∧ (∀ k : Fin 15, t.pendIDs[k] = none) ∧
      t = { s with pendCount := c, pendLen := c, pendIDs := t.pendIDs }

/-- R118 with a count left (slot 7: D11): the entry under the count takes the id, the count goes down by one, and
the MOTORS continuation is installed exactly when it reaches 0; nothing else. -/
def Obligations.MotorsArgFillsFromTheTopDown : Prop :=
  ∀ (c : Nibble) (a b : Bits16) (s : State), s.pendCount ≠ 0 →
    ∃ t, exec (.motorsArg c a b) s = .next t ∧ t.pendCount.toNat + 1 = s.pendCount.toNat ∧
      (∀ k : Fin 15, t.pendIDs[k] =
        if k.val + 1 = s.pendCount.toNat then some (c.setWidth 8) else s.pendIDs[k]) ∧
      (∀ j, readSlot j t =
        if j = 7 ∧ s.pendCount = 1 then .fireNext 7 else readSlot j s) ∧
      t = { s with pendCount := t.pendCount, pendIDs := t.pendIDs, slot := t.slot }

/-- R118, R180, R182 (D14, D15; entry 6): with no count left motors-arg takes the one fault there is, code 1: the
latch is set and nothing else is written. -/
def Obligations.MotorsArgUnderflowLatchesTheFault : Prop :=
  ∀ (c : Nibble) (a b : Bits16) (s : State), s.pendCount = 0 →
    exec (.motorsArg c a b) s = .next { s with fault := some .motorsArgUnderflow } ∧
      FaultCode.number .motorsArgUnderflow = 1 ∧ ∀ code : FaultCode, code = .motorsArgUnderflow

/-- R119 (every pattern kept: D20): the indexed variable takes arg0 : arg1, the other fifteen stay, TERM(9). -/
def Obligations.SetVarStoresThePattern : Prop :=
  ∀ (c : Nibble) (a b : Bits16) (s : State),
    ∃ t, exec (.setVar c a b) s = .next t ∧ readVar c t = a ++ b ∧
      (∀ j, j ≠ c → readVar j t = readVar j s) ∧
      t = { s with vars := t.vars, tx := s.tx ++ framesBytes [.term 9] }

/-- R120: VARIABLE with the variable's pattern, then TERM(10), and nothing else; a variable as reset left it is
sent as the pattern of 1.0. The frame begins with 0xAc, and its RX step sends ACK(10) before both. -/
def Obligations.GetVarSendsTheVariable : Prop :=
  ∀ (c : Nibble) (a b : Bits16) (s : State),
    exec (.getVar c a b) s =
      .next { s with tx := s.tx ++ framesBytes [.var c (readVar c s), .term 10] } ∧
    (readVar c s = readVar c State.reset → exec (.getVar c a b) s =
      .next { s with tx := s.tx ++ framesBytes [.var c 0x3F800000, .term 10] }) ∧
    (encodeFrame (.getVar c a b)).byte0 = 0xA#4 ++ c ∧
    processFrame (encodeFrame (.getVar c a b)) s =
      .next { s with tx := s.tx ++ framesBytes [.ack 10, .var c (readVar c s), .term 10] }

/-- R121 (complements 2 to 15: D7): the flag, TERM(11), and nothing else. -/
def Obligations.TrackSetsItsFlagAndTerminates : Prop :=
  ∀ (c : Nibble) (a b : Bits16) (s : State),
    exec (.track c a b) s =
      .next { s with tracking := decide (c.toNat ≠ 0), tx := s.tx ++ framesBytes [.term 11] }

/-- R68, R122 to R125: the reserved orders complete and change nothing; their frame is acknowledged and that is
all their RX step sends. -/
def Obligations.ReservedOrdersDoNothing : Prop :=
  ∀ (c : Nibble) (a b : Bits16) (s : State),
    exec (.reserved12 c a b) s = .next s ∧ exec (.reserved13 c a b) s = .next s ∧
    exec (.reserved14 c a b) s = .next s ∧ exec (.reserved15 c a b) s = .next s ∧
    ∀ f : Frame, 12 ≤ (decodeFrame f).id.toNat →
      processFrame f s = .next { s with tx := s.tx ++ framesBytes [.ack (decodeFrame f).id] }

/-- R65 (ids 4 and 5: D9, D10): an order's effect depends only on the fields its row uses. -/
def Obligations.IgnoredFieldsDoNotMatter : Prop :=
  ∀ (i j : Instr) (s : State), i.id = j.id →
    (i.id ∉ ([1, 2, 3, 6, 12, 13, 14, 15] : List Nibble) → i.complement = j.complement) →
    (i.id = 9 → i.arg0 = j.arg0) →
    (i.id ∈ ([1, 2, 4, 5, 6, 9] : List Nibble) → i.arg1 = j.arg1) →
    exec i s = exec j s

/-- R166: the frames each order's handler emits, and that they are appended to what was sent before. -/
def Obligations.EveryOrderSendsItsFeedback : Prop :=
  ∀ (i : Instr) (s : State),
    ∃ t, exec i s = .next t ∧ t.tx = s.tx ++ framesBytes (handlerFeedback i s)

/-- R97: no handler writes the frame assembler or the Poller's cursor; and none touches the model's schedule. -/
def Obligations.HandlersLeaveAssemblerAndCursor : Prop :=
  ∀ (i : Instr) (s t : State), exec i s = .next t →
    t.rxPos = s.rxPos ∧ t.rxBuf = s.rxBuf ∧ t.rxDiscard = s.rxDiscard ∧ t.pollCursor = s.pollCursor ∧
    t.schedule = s.schedule

/-! ### The receive path -/

/-- R90, R91, R92, R95: the step that accepts the fifth byte of a frame runs the decoded order, on the state with the
move taken, the assembler reset, the byte in the buffer and the order acknowledged. -/
def Obligations.StepRunsTheDecodedOrder : Prop :=
  ∀ (f : Frame) (rest : List Move) (s : State),
    s.fault = none → s.rxDiscard = 0 → s.rxPos = 4 →
    s.rxBuf[0] = some f.byte0 → s.rxBuf[1] = some f.byte1 → s.rxBuf[2] = some f.byte2 →
    s.rxBuf[3] = some f.byte3 → s.schedule = .rx f.byte4 :: rest →
    step s = exec (decodeFrame f) { s with
      schedule := rest
      rxPos := 0
      rxBuf := #v[some f.byte0, some f.byte1, some f.byte2, some f.byte3, some f.byte4]
      tx := s.tx ++ framesBytes [.ack (decodeFrame f).id] }

/-- The host's placing of a table word (entries 11, 12): in an unstopped block, the very next step runs the order
whose frame word it is, acknowledged, whatever else the state holds. -/
def Obligations.PlacedWordRunsAtTheNextStep : Prop :=
  ∀ (i : Instr) (s : State), s.fault = none →
    step (s.withFetchWord 40 (encodeFrame i).word.toNat) = exec i { s with
      rxDiscard := 0
      rxPos := 0
      rxBuf := #v[some (encodeFrame i).byte0, some (encodeFrame i).byte1, some (encodeFrame i).byte2,
        some (encodeFrame i).byte3, some (encodeFrame i).byte4]
      tx := s.tx ++ framesBytes [.ack i.id] }

/-- R90, R91: a noise byte only counts the discard down; a byte of an incomplete frame only enters the buffer and
moves the position on; neither sends anything (R167). -/
def Obligations.ByteBeforeAFrameEndOnlyMovesTheAssembler : Prop :=
  ∀ (b : Byte) (rest : List Move) (s : State), s.fault = none → s.schedule = .rx b :: rest →
    (s.rxDiscard ≠ 0 → step s = .next { s with schedule := rest, rxDiscard := s.rxDiscard - 1 }) ∧
    (s.rxDiscard = 0 → s.rxPos ≠ 4 →
      ∃ t, step s = .next t ∧ t.rxPos.val = s.rxPos.val + 1 ∧
        (∀ k : Fin 5, t.rxBuf[k] = if k = s.rxPos then some b else s.rxBuf[k]) ∧
        t = { s with schedule := rest, rxPos := t.rxPos, rxBuf := t.rxBuf })

/-- R45, R91 (interleaving: D25, carried by the schedule of entry 1): five bytes offered one after the other at a
frame boundary, with any number of Poller steps before each of them, are one frame. The Poller's steps keep what is
held, and whatever they send comes first. The Poller steps alone are those of an empty schedule, and that they
answer a next state rests on entry 2. -/
def Obligations.FiveBytesAreOneFrameWhateverThePollerDoes : Prop :=
  ∀ (f : Frame) (n0 n1 n2 n3 n4 : Nat) (s : State),
    s.fault = none → s.rxDiscard = 0 → s.rxPos = 0 →
    s.schedule = List.replicate n0 .poll ++ .rx f.byte0 :: (List.replicate n1 .poll ++ .rx f.byte1 ::
      (List.replicate n2 .poll ++ .rx f.byte2 :: (List.replicate n3 .poll ++ .rx f.byte3 ::
        (List.replicate n4 .poll ++ [.rx f.byte4])))) →
    ∃ u, runSteps (n0 + n1 + n2 + n3 + n4) { s with schedule := [] } = .next u ∧
      runSteps (n0 + n1 + n2 + n3 + n4 + 5) s =
        exec (decodeFrame f) { u with
          rxBuf := #v[some f.byte0, some f.byte1, some f.byte2, some f.byte3, some f.byte4]
          tx := u.tx ++ framesBytes [.ack (decodeFrame f).id] }

/-- R201, R202 (count 3: D5): after reset the first three bytes are discarded whatever they are, and the next five
are the first frame. -/
def Obligations.NoiseIsDiscardedThenTheFirstFrameRuns : Prop :=
  ∀ (x y z : Byte) (f : Frame) (rest : List Move),
    runSteps 8 { State.reset with
        schedule := Move.rx x :: .rx y :: .rx z :: .rx f.byte0 :: .rx f.byte1 :: .rx f.byte2 ::
          .rx f.byte3 :: .rx f.byte4 :: rest } =
      exec (decodeFrame f) { State.reset with
        schedule := rest
        rxDiscard := 0
        rxBuf := #v[some f.byte0, some f.byte1, some f.byte2, some f.byte3, some f.byte4]
        tx := framesBytes [.ack (decodeFrame f).id] }

/-! ### The Poller -/

/-- R144, R145, R147: evaluating a slot runs its continuation: an Idle slot nothing, an AwaitLidarRun slot as the
flag stands, a FireNext slot always; firing emits the one TERMINATE and retires the slot. -/
def Obligations.EvaluationRunsTheContinuation : Prop :=
  ∀ (i : Nibble) (s : State),
    (readSlot i s = .idle → evaluate i s = s) ∧
    (∀ target, readSlot i s = .awaitLidarRun target → s.lidarStopped = true → evaluate i s = s) ∧
    ∀ target, (readSlot i s = .awaitLidarRun target ∧ s.lidarStopped = false) ∨
        readSlot i s = .fireNext target →
      readSlot i (evaluate i s) = .idle ∧ (∀ j, j ≠ i → readSlot j (evaluate i s) = readSlot j s) ∧
      evaluate i s = { s with
        slot := (evaluate i s).slot
        tx := s.tx ++ framesBytes [.term target] }

/-- R148: a continuation fires at most once per installation: the evaluation that sends retires the slot, a second
one finds nothing to do, and what cancel-move retired sends no TERMINATE. -/
def Obligations.ContinuationFiresAtMostOnce : Prop :=
  (∀ (i : Nibble) (s : State), (evaluate i s).tx ≠ s.tx → readSlot i (evaluate i s) = .idle) ∧
    (∀ (i : Nibble) (s : State), evaluate i (evaluate i s) = evaluate i s) ∧
    ∀ (c : Nibble) (a b : Bits16) (s : State),
      ∃ t, exec (.cancelMove c a b) s = .next t ∧ evaluate 1 t = t ∧ evaluate 2 t = t

/-- R141, R144 to R147: a Poller step evaluates the slot under the cursor, fires it or not, and moves the cursor on;
the step of an unstopped block whose schedule is empty or begins with a poll is this one (entry 2). -/
def Obligations.PollerStepEvaluatesOneSlot : Prop :=
  ∀ s : State, s.fault = none → (s.schedule = [] ∨ s.schedule.head? = some .poll) →
    ∃ t, step s = .next t ∧
      readSlot s.pollCursor t = afterEvaluation s.lidarStopped (readSlot s.pollCursor s) ∧
      (∀ j, j ≠ s.pollCursor → readSlot j t = readSlot j s) ∧
      t.pollCursor.toNat = (s.pollCursor.toNat + 1) % 16 ∧
      t = { s with
        slot := t.slot
        pollCursor := t.pollCursor
        schedule := s.schedule.tail
        tx := s.tx ++ framesBytes (firing s.lidarStopped (readSlot s.pollCursor s)) }

/-- R140: sixteen Poller steps from slot 0 are one loop iteration: every slot is evaluated once, in id order, and
the TERMINATEs come in that order (one slot a step: D16). The loop is the same function of the state as evaluating
all slots at once. Steps past the end of the schedule are the Poller's by entry 2. -/
def Obligations.LoopIterationEvaluatesAllSlotsInIdOrder : Prop :=
  ∀ s : State, s.fault = none → OnlyPolls s → s.pollCursor = 0 →
    runSteps 16 s = .next { s with
      schedule := s.schedule.drop 16
      slot := s.slot.map (afterEvaluation s.lidarStopped)
      tx := s.tx ++ framesBytes (s.slot.toList.flatMap (firing s.lidarStopped)) }

/-- R147, R148, R149 (poll ticks: D16). Whatever orders arrive between: a step that is no reset and does not evaluate
the slot leaves its FireNext there, and the step that does fires it and leaves Idle. So the first Poller step that
finds the cursor on the slot, 0 to 15 Poller steps on other slots and any number of bytes after, sends the
TERMINATE. With no byte offered the run itself is sure to come there (steps past the schedule's end: entry 2). -/
def Obligations.FireNextFiresAtItsSlotsNextTick : Prop :=
  (∀ (s t : State) (i target : Nibble), SlotsLegal s → readSlot i s = .fireNext target →
    nextMove s ≠ .reset → step s = .next t →
    (¬(nextMove s = .poll ∧ s.pollCursor = i) → readSlot i t = .fireNext target) ∧
    (nextMove s = .poll ∧ s.pollCursor = i →
      readSlot i t = .idle ∧ t.tx = s.tx ++ framesBytes [.term target])) ∧
  (∀ (s t : State) (i target : Nibble) (before rest : List Move), SlotsLegal s →
    readSlot i s = .fireNext target → s.schedule = before ++ .poll :: rest → Move.reset ∉ before →
    before.count .poll = (i - s.pollCursor).toNat → runSteps (before.length + 1) s = .next t →
    readSlot i t = .idle ∧ ∃ fs, t.tx = s.tx ++ framesBytes (fs ++ [.term target])) ∧
  ∀ (s : State) (i target : Nibble), s.fault = none → OnlyPolls s → readSlot i s = .fireNext target →
    (∀ n, n ≤ (i - s.pollCursor).toNat →
      ∃ t, runSteps n s = .next t ∧ readSlot i t = .fireNext target) ∧
    ∃ t fs, runSteps ((i - s.pollCursor).toNat + 1) s = .next t ∧
      readSlot i t = .idle ∧ t.tx = s.tx ++ framesBytes (fs ++ [.term target])

/-- R146, R212, V40: while lidarStopped is true a pending motion stays and its TERMINATE is not sent, whatever bytes
and orders come but the ones that end the hold: a lidar-toggle of complement 0, a cancel-move, a reset. First for one
step, then for any run of them; last, with no byte offered, the run is sure to go on (steps past the schedule's end:
entry 2). -/
def Obligations.StoppedLidarHoldsMotionForever : Prop :=
  (∀ (s t : State) (i target : Nibble), SlotsLegal s → s.lidarStopped = true →
    readSlot i s = .awaitLidarRun target → LeavesMotionHeld s → step s = .next t →
    SlotsLegal t ∧ t.lidarStopped = true ∧ readSlot i t = .awaitLidarRun target ∧
      ∃ fs, t.tx = s.tx ++ framesBytes fs ∧ Feedback.term target ∉ fs) ∧
  (∀ (n : Nat) (s t : State) (i target : Nibble), SlotsLegal s → s.lidarStopped = true →
    readSlot i s = .awaitLidarRun target →
    (∀ m, m < n → ∀ u, runSteps m s = .next u → LeavesMotionHeld u) → runSteps n s = .next t →
    readSlot i t = .awaitLidarRun target ∧ ∃ fs, t.tx = s.tx ++ framesBytes fs ∧ Feedback.term target ∉ fs) ∧
  ∀ (n : Nat) (s : State) (i target : Nibble), s.fault = none → OnlyPolls s → SlotsLegal s →
    s.lidarStopped = true → readSlot i s = .awaitLidarRun target →
    ∃ t fs, runSteps n s = .next t ∧ readSlot i t = .awaitLidarRun target ∧
      t.tx = s.tx ++ framesBytes fs ∧ Feedback.term target ∉ fs

/-- R152: clearing the flag sends TERM(0), the next tick of slot 1 sends the one TERM(1), later ticks nothing, for any
number of steps with no byte offered (those past the schedule's end are the Poller's by entry 2). -/
def Obligations.LidarRunReleasesAPendingMove : Prop :=
  ∀ (a b : Bits16) (s : State), s.fault = none → s.pollCursor = 1 → OnlyPolls s →
    (∀ j, j ≠ 1 → readSlot j s = .idle) → readSlot 1 s = .awaitLidarRun 1 →
    ∃ t u, exec (.lidarToggle 0 a b) s = .next t ∧ runSteps 1 t = .next u ∧
      u.tx = s.tx ++ framesBytes [.term 0, .term 1] ∧ readSlot 1 u = .idle ∧
      ∀ n, ∃ v, runSteps n u = .next v ∧ v.tx = u.tx

/-- R145, R201, R141: with every slot Idle and no byte offered the Poller runs for ever and sends nothing, and its
cursor walks on modulo 16 (steps past the schedule's end are the Poller's by entry 2). -/
def Obligations.IdleSlotsStaySilent : Prop :=
  ∀ (n : Nat) (s : State), s.fault = none → OnlyPolls s → (∀ i, readSlot i s = .idle) →
    ∃ t, runSteps n s = .next t ∧ t.tx = s.tx ∧ (∀ i, readSlot i t = .idle) ∧
      t.pollCursor.toNat = (s.pollCursor.toNat + n) % 16

/-- R142, R214 (D24): a motion order repeated before it fires leaves what the second one alone would leave. -/
def Obligations.ReinstalledContinuationReplacesTheFirst : Prop :=
  ∀ (c c' : Nibble) (a a' b b' : Bits16) (s : State),
    execAll [.move c a b, .move c' a' b'] s = exec (.move c' a' b') s ∧
    execAll [.rotate c a b, .rotate c' a' b'] s = exec (.rotate c' a' b') s ∧
    execAll [.motorTime c a b, .motorTime c' a' b'] s = exec (.motorTime c' a' b') s

/-! ### Feedback -/

/-- R161, R162, R163: the five bytes of ACKNOWLEDGE, TERMINATE and VARIABLE, as numbers. -/
def Obligations.AckTermAndVarHaveTheirLayout : Prop :=
  (∀ id : Nibble, ∃ b : Byte, (Feedback.ack id).bytes = [b, 0, 0, 0, 0] ∧
    b.toNat = 16 * feedbackCodes.ack.toNat + id.toNat) ∧
  (∀ id : Nibble, ∃ b : Byte, (Feedback.term id).bytes = [b, 0, 0, 0, 0] ∧
    b.toNat = 16 * feedbackCodes.term.toNat + id.toNat) ∧
  ∀ (i : Nibble) (p : Bits32), ∃ b0 b1 b2 b3 b4 : Byte, (Feedback.var i p).bytes = [b0, b1, b2, b3, b4] ∧
    b0.toNat = 16 * feedbackCodes.var.toNat + i.toNat ∧
    2 ^ 24 * b1.toNat + 2 ^ 16 * b2.toNat + 2 ^ 8 * b3.toNat + b4.toNat = p.toNat

/-- R164 (low nibble: D4, entry 4) and sample 0 of R165 (D19, V46, entry 5): a TRACKING frame's five bytes, and
the first sample of every burst is the pattern 0. -/
def Obligations.TrackingFramesHaveTheirLayout : Prop :=
  (∀ p : Bits32, ∃ b0 b1 b2 b3 b4 : Byte, (Feedback.trk p).bytes = [b0, b1, b2, b3, b4] ∧
    b0.toNat = 16 * feedbackCodes.track.toNat + feedbackCodes.trackNibble.toNat ∧
    2 ^ 24 * b1.toNat + 2 ^ 16 * b2.toNat + 2 ^ 8 * b3.toNat + b4.toNat = p.toNat) ∧
  trackingBurst.length = 500 ∧ trackingBurst.head? = some (.trk 0) ∧ (framesBytes trackingBurst).length = 2500

/-- R71, R168 (codes: D3, entry 4): the four codes are pairwise distinct, and the Host reads every frame back. -/
def Obligations.HostReadsEveryFeedbackFrame : Prop :=
  [feedbackCodes.ack, feedbackCodes.term, feedbackCodes.var, feedbackCodes.track].Nodup ∧
  ∀ f : Feedback, ∃ b0 b1 b2 b3 b4 : Byte, f.bytes = [b0, b1, b2, b3, b4] ∧
    readFeedback feedbackCodes b0 b1 b2 b3 b4 = some f

/-- R168 carried to the whole stream: the bytes sent determine the frames sent (codes: D3, entry 4). -/
def Obligations.StreamDeterminesItsFrames : Prop :=
  ∀ fs gs : List Feedback, framesBytes fs = framesBytes gs → fs = gs

/-! ### Sequences of orders -/

/-- R118, R213 (D11, D13; the fault: D14, D15, its entry a next state by entry 6): a motors order and as many motors-arg orders as it counts fill the list in reverse,
install the MOTORS continuation and send nothing; one motors-arg more takes the fault. -/
def Obligations.MotorsPhaseFillsInReverseThenFaults : Prop :=
  ∀ (c : Nibble) (a b : Bits16) (ids : List Nibble) (s : State), c ≠ 0 → ids.length = c.toNat →
    ∃ t, execAll (.motors c a b :: ids.map fun n => .motorsArg n a b) s = .next t ∧
      livePending t = ids.reverse.map (fun n => some (n.setWidth 8)) ∧ t.pendCount = 0 ∧ t.pendLen = c ∧
      readSlot 7 t = .fireNext 7 ∧ t.tx = s.tx ∧ t.fault = s.fault ∧
      ∀ n : Nibble, exec (.motorsArg n a b) t = .next { t with fault := some .motorsArgUnderflow }

/-- R14, R43: a variable set and read back after any orders that do not set it travels unchanged, whatever
pattern it is (D20). -/
def Obligations.VariableReadsBackWhatWasSet : Prop :=
  ∀ (c : Nibble) (a b a' b' : Bits16) (between : List Instr) (s t u v : State),
    (∀ i ∈ between, ∀ x y, i ≠ .setVar c x y) →
    exec (.setVar c a b) s = .next t → execAll between t = .next u → exec (.getVar c a' b') u = .next v →
    v.tx = u.tx ++ framesBytes [.var c (a ++ b), .term 10]

/-! ### Who writes what: every step that is not a reset -/

/-- R14: the Variable Store is written only by set-var, and only at its index. -/
def Obligations.OnlySetVarWritesVariables : Prop :=
  ∀ (s t : State) (i : Nibble), step s = .next t → nextMove s ≠ .reset → readVar i t ≠ readVar i s →
    ∃ a b, arrivingOrder s = some (.setVar i a b)

/-- R15, R16: the flags are written only by lidar-toggle and by track. -/
def Obligations.OnlyTheirOrdersWriteTheFlags : Prop :=
  ∀ s t : State, step s = .next t → nextMove s ≠ .reset →
    (t.lidarStopped ≠ s.lidarStopped → ∃ c a b, arrivingOrder s = some (.lidarToggle c a b)) ∧
    (t.tracking ≠ s.tracking → ∃ c a b, arrivingOrder s = some (.track c a b))

/-- R17 to R21: each actuator register is written only by the orders its rule names. -/
def Obligations.OnlyTheirOrdersWriteTheActuatorRegisters : Prop :=
  ∀ s t : State, step s = .next t → nextMove s ≠ .reset →
    (t.tickTarget ≠ s.tickTarget → ∃ c a b, arrivingOrder s = some (.move c a b) ∨
      arrivingOrder s = some (.rotate c a b)) ∧
    (t.motorID ≠ s.motorID → ∃ c a b, arrivingOrder s = some (.motorValue c a b) ∨
      arrivingOrder s = some (.motorTime c a b)) ∧
    (t.motorValue ≠ s.motorValue → ∃ c a b, arrivingOrder s = some (.motorValue c a b)) ∧
    (t.motorTime ≠ s.motorTime → ∃ c a b, arrivingOrder s = some (.motorTime c a b)) ∧
    (t.pumpBitmask ≠ s.pumpBitmask → ∃ c a b, arrivingOrder s = some (.pumps c a b))

/-- R22, R23, R24: the pending selection is written only by motors and motors-arg, its length by motors alone. -/
def Obligations.OnlyMotorsOrdersWriteTheSelection : Prop :=
  ∀ s t : State, step s = .next t → nextMove s ≠ .reset →
    ((t.pendCount ≠ s.pendCount ∨ t.pendIDs ≠ s.pendIDs) → ∃ c a b,
      arrivingOrder s = some (.motors c a b) ∨ arrivingOrder s = some (.motorsArg c a b)) ∧
    (t.pendLen ≠ s.pendLen → ∃ c a b, arrivingOrder s = some (.motors c a b))

/-- R25, R97: a slot changes only where its own order installs it, where cancel-move retires it, or where the
Poller, its cursor on that slot, retires it. -/
def Obligations.OnlyHandlersAndThePollerWriteSlots : Prop :=
  ∀ (s t : State) (i : Nibble), step s = .next t → nextMove s ≠ .reset → readSlot i t ≠ readSlot i s →
    (nextMove s = .poll ∧ s.pollCursor = i ∧ readSlot i t = .idle) ∨
    ∃ c a b,
      (arrivingOrder s = some (.move c a b) ∧ i = 1) ∨ (arrivingOrder s = some (.rotate c a b) ∧ i = 2) ∨
      (arrivingOrder s = some (.cancelMove c a b) ∧ (i = 1 ∨ i = 2)) ∨
      (arrivingOrder s = some (.motorValue c a b) ∧ i = 4) ∨
      (arrivingOrder s = some (.motorTime c a b) ∧ i = 5) ∨
      (arrivingOrder s = some (.motorsArg c a b) ∧ i = 7 ∧ s.pendCount = 1)

/-- R33, R24 (entry 8): every port shows its field as it stands, the list port all fifteen entries; the live list is
the first pendLen of them. -/
def Obligations.PortsShowTheActuatorState : Prop :=
  ∀ s : State,
    (ports s).lidarStopped = s.lidarStopped ∧ (ports s).tracking = s.tracking ∧
    (ports s).tickTarget = s.tickTarget ∧ (ports s).motorID = s.motorID ∧
    (ports s).motorValue = s.motorValue ∧ (ports s).motorTime = s.motorTime ∧
    (ports s).pumpBitmask = s.pumpBitmask ∧ (ports s).pendLen = s.pendLen ∧
    (ports s).pendIDs = s.pendIDs ∧
    (livePending s).length = s.pendLen.toNat ∧
    ∀ k : Fin 15, k.val < s.pendLen.toNat → (livePending s)[k.val]? = some (ports s).pendIDs[k]

/-! ### Faults -/

/-- R181, R187 (D15; entry 6): a stopped block has no step but a reset; the state stays as the fault left it. -/
def Obligations.StoppedBlockOnlyLeavesByReset : Prop :=
  ∀ (s : State) (code : FaultCode), s.fault = some code →
    (nextMove s ≠ .reset → step s = .fault (.stopped code)) ∧
    ∀ (n : Nat) (t : State), runSteps n s = .next t → t.fault = none →
      Move.reset ∈ s.schedule.take n

/-- R180, R182, R183 (D14): the only step that latches a fault is the RX step of a motors-arg received with no
count left, and apart from the latch it leaves the frame taken and the order acknowledged. -/
def Obligations.OnlyMotorsArgUnderflowFaults : Prop :=
  ∀ s t : State, s.fault = none → step s = .next t → t.fault ≠ none →
    (∃ c a b, arrivingOrder s = some (.motorsArg c a b)) ∧ s.pendCount = 0 ∧
    t = { s with
      schedule := s.schedule.tail
      rxPos := 0
      rxBuf := t.rxBuf
      fault := some .motorsArgUnderflow
      tx := s.tx ++ framesBytes [.ack 8] }

/-! ### Invariants -/

/-- R200 and the ranges of the state's fields: the invariant holds at reset. -/
def Obligations.ResetSatisfiesTheInvariant : Prop := Inv State.reset

/-- Every step keeps the invariant: the counters in range (R28), the bytes of a begun frame held (R30), each slot
Idle or its own continuation (R126, R143), the pending list filled exactly from the count up (R24, R118), motor ids
0 to 15 (R18), tx a sequence of whole frames (R32), and a latched fault explained (R182). -/
def Obligations.StepKeepsTheInvariant : Prop :=
  ∀ s t : State, Inv s → step s = .next t → Inv t

/-- R203, R183 (entry 7): in a state that meets the invariant an unstopped block always has a next step: it never
refuses and never faults, whatever byte is offered. With an empty schedule that step is the Poller's (entry 2). -/
def Obligations.UnstoppedBlockAlwaysSteps : Prop :=
  ∀ s : State, FrameHeld s → s.fault = none → ∃ t, step s = .next t

/-- R32, R50, R160: every step that is not a reset keeps all that was sent and appends whole frames, at most the
501 of a tracked motor-value. -/
def Obligations.StepsOnlyAppendWholeFrames : Prop :=
  ∀ s t : State, step s = .next t → nextMove s ≠ .reset →
    ∃ fs : List Feedback, fs.length ≤ 501 ∧ t.tx = s.tx ++ framesBytes fs

/-- R29, R45: the assembler's position moves by bytes alone: it counts accepted bytes modulo 5, and Poller steps
and noise bytes leave it. -/
def Obligations.PositionCountsBytesModuloFive : Prop :=
  ∀ (s t : State) (b : Byte), step s = .next t →
    (nextMove s = .rx b → s.rxDiscard = 0 → t.rxPos.val = (s.rxPos.val + 1) % 5) ∧
    (nextMove s = .rx b → s.rxDiscard ≠ 0 → t.rxPos = s.rxPos ∧ t.rxDiscard + 1 = s.rxDiscard) ∧
    (nextMove s = .poll → t.rxPos = s.rxPos ∧ t.rxBuf = s.rxBuf ∧ t.rxDiscard = s.rxDiscard)
end

