-- ==== Sys2Proof/Laws/Decode.lean ====
section
/-! SUPPORT. What the order map, the decoder and the encoder do, field by field: proofs cite these and do not
split the sixteen ids again. -/

namespace Sys2Proof

/-- A nibble is the number its four bits spell. -/
theorem nibble_eq_bits : ∀ n : Nibble,
    n = BitVec.ofNat 4 (8 * n[3].toNat + 4 * n[2].toNat + 2 * n[1].toNat + n[0].toNat) := by
  decide

theorem instrOf_id (id c : Nibble) (a b : Bits16) : (instrOf id c a b).id = id := by
  conv => rhs; rw [nibble_eq_bits id]
  unfold instrOf
  cases id[3] <;> cases id[2] <;> cases id[1] <;> cases id[0] <;> rfl

theorem instrOf_complement (id c : Nibble) (a b : Bits16) : (instrOf id c a b).complement = c := by
  unfold instrOf
  split <;> rfl

theorem instrOf_arg0 (id c : Nibble) (a b : Bits16) : (instrOf id c a b).arg0 = a := by
  unfold instrOf
  split <;> rfl

theorem instrOf_arg1 (id c : Nibble) (a b : Bits16) : (instrOf id c a b).arg1 = b := by
  unfold instrOf
  split <;> rfl

/-- An order is its id and its three fields. -/
theorem instrOf_fields (i : Instr) : instrOf i.id i.complement i.arg0 i.arg1 = i := by
  cases i <;> simp [instrOf, Instr.id, Instr.complement, Instr.arg0, Instr.arg1]

/-- `decodeFrame` is the order map on the decoded fields. -/
theorem decodeFrame_eq (f : Frame) :
    decodeFrame f = instrOf (decodeOrder f).id (decodeOrder f).complement (decodeOrder f).arg0
      (decodeOrder f).arg1 := rfl

theorem decodeFrame_id (f : Frame) : (decodeFrame f).id = f.byte0.extractLsb' 4 4 :=
  instrOf_id ..

theorem decodeFrame_complement (f : Frame) : (decodeFrame f).complement = f.byte0.extractLsb' 0 4 :=
  instrOf_complement ..

theorem decodeFrame_arg0 (f : Frame) : (decodeFrame f).arg0 = (decodeOrder f).arg0 :=
  instrOf_arg0 ..

theorem decodeFrame_arg1 (f : Frame) : (decodeFrame f).arg1 = (decodeOrder f).arg1 :=
  instrOf_arg1 ..

/-- Two high and low halves put together by shift and or are their concatenation. -/
theorem shiftLeft_or_eq_append {m n : Nat} (x : BitVec m) (y : BitVec n) :
    (x.setWidth (m + n) <<< n) ||| y.setWidth (m + n) = x ++ y := by
  ext k hk
  simp only [BitVec.getElem_or, BitVec.getElem_shiftLeft, BitVec.getElem_setWidth,
    BitVec.getElem_append]
  by_cases h : k < n
  · simp [h]
  · simp [h, BitVec.getLsbD_of_ge y k (by omega), BitVec.getLsbD_eq_getElem (show k - n < m by omega)]

theorem decodeOrder_arg0 (f : Frame) : (decodeOrder f).arg0 = f.byte1 ++ f.byte2 :=
  shiftLeft_or_eq_append f.byte1 f.byte2

theorem decodeOrder_arg1 (f : Frame) : (decodeOrder f).arg1 = f.byte3 ++ f.byte4 :=
  shiftLeft_or_eq_append f.byte3 f.byte4

/-- Or is addition where the low part stays below the high part's lowest bit. -/
theorem mul_two_pow_or {k : Nat} (x : Nat) {y : Nat} (h : y < 2 ^ k) : x * 2 ^ k ||| y = x * 2 ^ k + y := by
  rw [← Nat.shiftLeft_eq, Nat.shiftLeft_add_eq_or_of_lt h]

theorem toNat_append_eq {m n : Nat} (x : BitVec m) (y : BitVec n) :
    (x ++ y).toNat = x.toNat * 2 ^ n + y.toNat := by
  rw [BitVec.toNat_append, Nat.shiftLeft_eq, mul_two_pow_or _ y.isLt]

theorem decodeOrder_floatBits (f : Frame) :
    (decodeOrder f).floatBits = f.byte1 ++ f.byte2 ++ f.byte3 ++ f.byte4 := by
  apply BitVec.eq_of_toNat_eq
  have h1 := f.byte1.isLt
  have h2 := f.byte2.isLt
  have h3 := f.byte3.isLt
  have h4 := f.byte4.isLt
  have e : (f.byte1 ++ f.byte2 ++ f.byte3 ++ f.byte4).toNat =
      ((f.byte1.toNat * 2 ^ 8 + f.byte2.toNat) * 2 ^ 8 + f.byte3.toNat) * 2 ^ 8 + f.byte4.toNat := by
    simp only [toNat_append_eq]
  refine Eq.trans ?_ e.symm
  have o1 := mul_two_pow_or (k := 24) f.byte1.toNat (y := f.byte2.toNat * 2 ^ 16) (by omega)
  have o2 := mul_two_pow_or (k := 16) (f.byte1.toNat * 2 ^ 8 + f.byte2.toNat)
    (y := f.byte3.toNat * 2 ^ 8) (by omega)
  have o3 := mul_two_pow_or (k := 8) ((f.byte1.toNat * 2 ^ 8 + f.byte2.toNat) * 2 ^ 8 + f.byte3.toNat) h4
  have m1 : f.byte1.toNat % 2 ^ 32 = f.byte1.toNat := by omega
  have m2 : f.byte2.toNat % 2 ^ 32 = f.byte2.toNat := by omega
  have m3 : f.byte3.toNat % 2 ^ 32 = f.byte3.toNat := by omega
  have m4 : f.byte4.toNat % 2 ^ 32 = f.byte4.toNat := by omega
  have n1 : f.byte1.toNat * 2 ^ 24 % 2 ^ 32 = f.byte1.toNat * 2 ^ 24 := Nat.mod_eq_of_lt (by omega)
  have n2 : f.byte2.toNat * 2 ^ 16 % 2 ^ 32 = f.byte2.toNat * 2 ^ 16 := Nat.mod_eq_of_lt (by omega)
  have n3 : f.byte3.toNat * 2 ^ 8 % 2 ^ 32 = f.byte3.toNat * 2 ^ 8 := Nat.mod_eq_of_lt (by omega)
  simp only [decodeOrder, BitVec.toNat_or, BitVec.toNat_shiftLeft, BitVec.toNat_setWidth, Nat.shiftLeft_eq, m1, m2, m3, m4,
    n1, n2, n3, o1]
  rw [show f.byte1.toNat * 2 ^ 24 + f.byte2.toNat * 2 ^ 16 = (f.byte1.toNat * 2 ^ 8 + f.byte2.toNat) * 2 ^ 16 by ring, o2,
    show (f.byte1.toNat * 2 ^ 8 + f.byte2.toNat) * 2 ^ 16 + f.byte3.toNat * 2 ^ 8 = ((f.byte1.toNat * 2 ^ 8 + f.byte2.toNat) * 2 ^ 8 + f.byte3.toNat) * 2 ^ 8 by ring, o3]

end Sys2Proof
end

