-- ==== Sys2Proof/Laws/State.lean ====
section
/-! SUPPORT. One lemma per field per state update, each true by rfl: later proofs rewrite with these and do not
unfold a record update. -/

namespace Sys2Proof.Machine

/-! ### writeVar -/

@[simp] theorem writeVar_vars (i : Nibble) (p : Bits32) (s : State) : (writeVar i p s).vars = s.vars.set i.toNat p i.isLt := rfl
@[simp] theorem writeVar_lidarStopped (i : Nibble) (p : Bits32) (s : State) : (writeVar i p s).lidarStopped = s.lidarStopped := rfl
@[simp] theorem writeVar_tracking (i : Nibble) (p : Bits32) (s : State) : (writeVar i p s).tracking = s.tracking := rfl
@[simp] theorem writeVar_tickTarget (i : Nibble) (p : Bits32) (s : State) : (writeVar i p s).tickTarget = s.tickTarget := rfl
@[simp] theorem writeVar_motorID (i : Nibble) (p : Bits32) (s : State) : (writeVar i p s).motorID = s.motorID := rfl
@[simp] theorem writeVar_motorValue (i : Nibble) (p : Bits32) (s : State) : (writeVar i p s).motorValue = s.motorValue := rfl
@[simp] theorem writeVar_motorTime (i : Nibble) (p : Bits32) (s : State) : (writeVar i p s).motorTime = s.motorTime := rfl
@[simp] theorem writeVar_pumpBitmask (i : Nibble) (p : Bits32) (s : State) : (writeVar i p s).pumpBitmask = s.pumpBitmask := rfl
@[simp] theorem writeVar_pendCount (i : Nibble) (p : Bits32) (s : State) : (writeVar i p s).pendCount = s.pendCount := rfl
@[simp] theorem writeVar_pendLen (i : Nibble) (p : Bits32) (s : State) : (writeVar i p s).pendLen = s.pendLen := rfl
@[simp] theorem writeVar_pendIDs (i : Nibble) (p : Bits32) (s : State) : (writeVar i p s).pendIDs = s.pendIDs := rfl
@[simp] theorem writeVar_slot (i : Nibble) (p : Bits32) (s : State) : (writeVar i p s).slot = s.slot := rfl
@[simp] theorem writeVar_pollCursor (i : Nibble) (p : Bits32) (s : State) : (writeVar i p s).pollCursor = s.pollCursor := rfl
@[simp] theorem writeVar_rxDiscard (i : Nibble) (p : Bits32) (s : State) : (writeVar i p s).rxDiscard = s.rxDiscard := rfl
@[simp] theorem writeVar_rxPos (i : Nibble) (p : Bits32) (s : State) : (writeVar i p s).rxPos = s.rxPos := rfl
@[simp] theorem writeVar_rxBuf (i : Nibble) (p : Bits32) (s : State) : (writeVar i p s).rxBuf = s.rxBuf := rfl
@[simp] theorem writeVar_fault (i : Nibble) (p : Bits32) (s : State) : (writeVar i p s).fault = s.fault := rfl
@[simp] theorem writeVar_tx (i : Nibble) (p : Bits32) (s : State) : (writeVar i p s).tx = s.tx := rfl
@[simp] theorem writeVar_schedule (i : Nibble) (p : Bits32) (s : State) : (writeVar i p s).schedule = s.schedule := rfl

/-! ### install -/

@[simp] theorem install_vars (i : Nibble) (k : Slot) (s : State) : (install i k s).vars = s.vars := rfl
@[simp] theorem install_lidarStopped (i : Nibble) (k : Slot) (s : State) : (install i k s).lidarStopped = s.lidarStopped := rfl
@[simp] theorem install_tracking (i : Nibble) (k : Slot) (s : State) : (install i k s).tracking = s.tracking := rfl
@[simp] theorem install_tickTarget (i : Nibble) (k : Slot) (s : State) : (install i k s).tickTarget = s.tickTarget := rfl
@[simp] theorem install_motorID (i : Nibble) (k : Slot) (s : State) : (install i k s).motorID = s.motorID := rfl
@[simp] theorem install_motorValue (i : Nibble) (k : Slot) (s : State) : (install i k s).motorValue = s.motorValue := rfl
@[simp] theorem install_motorTime (i : Nibble) (k : Slot) (s : State) : (install i k s).motorTime = s.motorTime := rfl
@[simp] theorem install_pumpBitmask (i : Nibble) (k : Slot) (s : State) : (install i k s).pumpBitmask = s.pumpBitmask := rfl
@[simp] theorem install_pendCount (i : Nibble) (k : Slot) (s : State) : (install i k s).pendCount = s.pendCount := rfl
@[simp] theorem install_pendLen (i : Nibble) (k : Slot) (s : State) : (install i k s).pendLen = s.pendLen := rfl
@[simp] theorem install_pendIDs (i : Nibble) (k : Slot) (s : State) : (install i k s).pendIDs = s.pendIDs := rfl
@[simp] theorem install_slot (i : Nibble) (k : Slot) (s : State) : (install i k s).slot = s.slot.set i.toNat k i.isLt := rfl
@[simp] theorem install_pollCursor (i : Nibble) (k : Slot) (s : State) : (install i k s).pollCursor = s.pollCursor := rfl
@[simp] theorem install_rxDiscard (i : Nibble) (k : Slot) (s : State) : (install i k s).rxDiscard = s.rxDiscard := rfl
@[simp] theorem install_rxPos (i : Nibble) (k : Slot) (s : State) : (install i k s).rxPos = s.rxPos := rfl
@[simp] theorem install_rxBuf (i : Nibble) (k : Slot) (s : State) : (install i k s).rxBuf = s.rxBuf := rfl
@[simp] theorem install_fault (i : Nibble) (k : Slot) (s : State) : (install i k s).fault = s.fault := rfl
@[simp] theorem install_tx (i : Nibble) (k : Slot) (s : State) : (install i k s).tx = s.tx := rfl
@[simp] theorem install_schedule (i : Nibble) (k : Slot) (s : State) : (install i k s).schedule = s.schedule := rfl

/-! ### emit -/

@[simp] theorem emit_vars (f : Feedback) (s : State) : (emit f s).vars = s.vars := rfl
@[simp] theorem emit_lidarStopped (f : Feedback) (s : State) : (emit f s).lidarStopped = s.lidarStopped := rfl
@[simp] theorem emit_tracking (f : Feedback) (s : State) : (emit f s).tracking = s.tracking := rfl
@[simp] theorem emit_tickTarget (f : Feedback) (s : State) : (emit f s).tickTarget = s.tickTarget := rfl
@[simp] theorem emit_motorID (f : Feedback) (s : State) : (emit f s).motorID = s.motorID := rfl
@[simp] theorem emit_motorValue (f : Feedback) (s : State) : (emit f s).motorValue = s.motorValue := rfl
@[simp] theorem emit_motorTime (f : Feedback) (s : State) : (emit f s).motorTime = s.motorTime := rfl
@[simp] theorem emit_pumpBitmask (f : Feedback) (s : State) : (emit f s).pumpBitmask = s.pumpBitmask := rfl
@[simp] theorem emit_pendCount (f : Feedback) (s : State) : (emit f s).pendCount = s.pendCount := rfl
@[simp] theorem emit_pendLen (f : Feedback) (s : State) : (emit f s).pendLen = s.pendLen := rfl
@[simp] theorem emit_pendIDs (f : Feedback) (s : State) : (emit f s).pendIDs = s.pendIDs := rfl
@[simp] theorem emit_slot (f : Feedback) (s : State) : (emit f s).slot = s.slot := rfl
@[simp] theorem emit_pollCursor (f : Feedback) (s : State) : (emit f s).pollCursor = s.pollCursor := rfl
@[simp] theorem emit_rxDiscard (f : Feedback) (s : State) : (emit f s).rxDiscard = s.rxDiscard := rfl
@[simp] theorem emit_rxPos (f : Feedback) (s : State) : (emit f s).rxPos = s.rxPos := rfl
@[simp] theorem emit_rxBuf (f : Feedback) (s : State) : (emit f s).rxBuf = s.rxBuf := rfl
@[simp] theorem emit_fault (f : Feedback) (s : State) : (emit f s).fault = s.fault := rfl
@[simp] theorem emit_tx (f : Feedback) (s : State) : (emit f s).tx = s.tx ++ f.bytes := rfl
@[simp] theorem emit_schedule (f : Feedback) (s : State) : (emit f s).schedule = s.schedule := rfl

/-! ### openSelection -/

@[simp] theorem openSelection_vars (n : Nibble) (s : State) : (openSelection n s).vars = s.vars := rfl
@[simp] theorem openSelection_lidarStopped (n : Nibble) (s : State) : (openSelection n s).lidarStopped = s.lidarStopped := rfl
@[simp] theorem openSelection_tracking (n : Nibble) (s : State) : (openSelection n s).tracking = s.tracking := rfl
@[simp] theorem openSelection_tickTarget (n : Nibble) (s : State) : (openSelection n s).tickTarget = s.tickTarget := rfl
@[simp] theorem openSelection_motorID (n : Nibble) (s : State) : (openSelection n s).motorID = s.motorID := rfl
@[simp] theorem openSelection_motorValue (n : Nibble) (s : State) : (openSelection n s).motorValue = s.motorValue := rfl
@[simp] theorem openSelection_motorTime (n : Nibble) (s : State) : (openSelection n s).motorTime = s.motorTime := rfl
@[simp] theorem openSelection_pumpBitmask (n : Nibble) (s : State) : (openSelection n s).pumpBitmask = s.pumpBitmask := rfl
@[simp] theorem openSelection_pendCount (n : Nibble) (s : State) : (openSelection n s).pendCount = n := rfl
@[simp] theorem openSelection_pendLen (n : Nibble) (s : State) : (openSelection n s).pendLen = n := rfl
@[simp] theorem openSelection_pendIDs (n : Nibble) (s : State) : (openSelection n s).pendIDs = Vector.replicate 15 none := rfl
@[simp] theorem openSelection_slot (n : Nibble) (s : State) : (openSelection n s).slot = s.slot := rfl
@[simp] theorem openSelection_pollCursor (n : Nibble) (s : State) : (openSelection n s).pollCursor = s.pollCursor := rfl
@[simp] theorem openSelection_rxDiscard (n : Nibble) (s : State) : (openSelection n s).rxDiscard = s.rxDiscard := rfl
@[simp] theorem openSelection_rxPos (n : Nibble) (s : State) : (openSelection n s).rxPos = s.rxPos := rfl
@[simp] theorem openSelection_rxBuf (n : Nibble) (s : State) : (openSelection n s).rxBuf = s.rxBuf := rfl
@[simp] theorem openSelection_fault (n : Nibble) (s : State) : (openSelection n s).fault = s.fault := rfl
@[simp] theorem openSelection_tx (n : Nibble) (s : State) : (openSelection n s).tx = s.tx := rfl
@[simp] theorem openSelection_schedule (n : Nibble) (s : State) : (openSelection n s).schedule = s.schedule := rfl

/-! ### fillPending -/

@[simp] theorem fillPending_vars (v : Byte) (s : State) : (fillPending v s).vars = s.vars := rfl
@[simp] theorem fillPending_lidarStopped (v : Byte) (s : State) : (fillPending v s).lidarStopped = s.lidarStopped := rfl
@[simp] theorem fillPending_tracking (v : Byte) (s : State) : (fillPending v s).tracking = s.tracking := rfl
@[simp] theorem fillPending_tickTarget (v : Byte) (s : State) : (fillPending v s).tickTarget = s.tickTarget := rfl
@[simp] theorem fillPending_motorID (v : Byte) (s : State) : (fillPending v s).motorID = s.motorID := rfl
@[simp] theorem fillPending_motorValue (v : Byte) (s : State) : (fillPending v s).motorValue = s.motorValue := rfl
@[simp] theorem fillPending_motorTime (v : Byte) (s : State) : (fillPending v s).motorTime = s.motorTime := rfl
@[simp] theorem fillPending_pumpBitmask (v : Byte) (s : State) : (fillPending v s).pumpBitmask = s.pumpBitmask := rfl
@[simp] theorem fillPending_pendCount (v : Byte) (s : State) : (fillPending v s).pendCount = s.pendCount - 1 := rfl
@[simp] theorem fillPending_pendLen (v : Byte) (s : State) : (fillPending v s).pendLen = s.pendLen := rfl
@[simp] theorem fillPending_pendIDs (v : Byte) (s : State) : (fillPending v s).pendIDs = s.pendIDs.setIfInBounds (s.pendCount.toNat - 1) (some v) := rfl
@[simp] theorem fillPending_slot (v : Byte) (s : State) : (fillPending v s).slot = s.slot := rfl
@[simp] theorem fillPending_pollCursor (v : Byte) (s : State) : (fillPending v s).pollCursor = s.pollCursor := rfl
@[simp] theorem fillPending_rxDiscard (v : Byte) (s : State) : (fillPending v s).rxDiscard = s.rxDiscard := rfl
@[simp] theorem fillPending_rxPos (v : Byte) (s : State) : (fillPending v s).rxPos = s.rxPos := rfl
@[simp] theorem fillPending_rxBuf (v : Byte) (s : State) : (fillPending v s).rxBuf = s.rxBuf := rfl
@[simp] theorem fillPending_fault (v : Byte) (s : State) : (fillPending v s).fault = s.fault := rfl
@[simp] theorem fillPending_tx (v : Byte) (s : State) : (fillPending v s).tx = s.tx := rfl
@[simp] theorem fillPending_schedule (v : Byte) (s : State) : (fillPending v s).schedule = s.schedule := rfl

/-! ### raiseFault -/

@[simp] theorem raiseFault_vars (c : FaultCode) (s : State) : (raiseFault c s).vars = s.vars := rfl
@[simp] theorem raiseFault_lidarStopped (c : FaultCode) (s : State) : (raiseFault c s).lidarStopped = s.lidarStopped := rfl
@[simp] theorem raiseFault_tracking (c : FaultCode) (s : State) : (raiseFault c s).tracking = s.tracking := rfl
@[simp] theorem raiseFault_tickTarget (c : FaultCode) (s : State) : (raiseFault c s).tickTarget = s.tickTarget := rfl
@[simp] theorem raiseFault_motorID (c : FaultCode) (s : State) : (raiseFault c s).motorID = s.motorID := rfl
@[simp] theorem raiseFault_motorValue (c : FaultCode) (s : State) : (raiseFault c s).motorValue = s.motorValue := rfl
@[simp] theorem raiseFault_motorTime (c : FaultCode) (s : State) : (raiseFault c s).motorTime = s.motorTime := rfl
@[simp] theorem raiseFault_pumpBitmask (c : FaultCode) (s : State) : (raiseFault c s).pumpBitmask = s.pumpBitmask := rfl
@[simp] theorem raiseFault_pendCount (c : FaultCode) (s : State) : (raiseFault c s).pendCount = s.pendCount := rfl
@[simp] theorem raiseFault_pendLen (c : FaultCode) (s : State) : (raiseFault c s).pendLen = s.pendLen := rfl
@[simp] theorem raiseFault_pendIDs (c : FaultCode) (s : State) : (raiseFault c s).pendIDs = s.pendIDs := rfl
@[simp] theorem raiseFault_slot (c : FaultCode) (s : State) : (raiseFault c s).slot = s.slot := rfl
@[simp] theorem raiseFault_pollCursor (c : FaultCode) (s : State) : (raiseFault c s).pollCursor = s.pollCursor := rfl
@[simp] theorem raiseFault_rxDiscard (c : FaultCode) (s : State) : (raiseFault c s).rxDiscard = s.rxDiscard := rfl
@[simp] theorem raiseFault_rxPos (c : FaultCode) (s : State) : (raiseFault c s).rxPos = s.rxPos := rfl
@[simp] theorem raiseFault_rxBuf (c : FaultCode) (s : State) : (raiseFault c s).rxBuf = s.rxBuf := rfl
@[simp] theorem raiseFault_fault (c : FaultCode) (s : State) : (raiseFault c s).fault = some c := rfl
@[simp] theorem raiseFault_tx (c : FaultCode) (s : State) : (raiseFault c s).tx = s.tx := rfl
@[simp] theorem raiseFault_schedule (c : FaultCode) (s : State) : (raiseFault c s).schedule = s.schedule := rfl

/-! ### setLidarStopped -/

@[simp] theorem setLidarStopped_vars (c : Nibble) (s : State) : (setLidarStopped c s).vars = s.vars := rfl
@[simp] theorem setLidarStopped_lidarStopped (c : Nibble) (s : State) : (setLidarStopped c s).lidarStopped = b2bool c := rfl
@[simp] theorem setLidarStopped_tracking (c : Nibble) (s : State) : (setLidarStopped c s).tracking = s.tracking := rfl
@[simp] theorem setLidarStopped_tickTarget (c : Nibble) (s : State) : (setLidarStopped c s).tickTarget = s.tickTarget := rfl
@[simp] theorem setLidarStopped_motorID (c : Nibble) (s : State) : (setLidarStopped c s).motorID = s.motorID := rfl
@[simp] theorem setLidarStopped_motorValue (c : Nibble) (s : State) : (setLidarStopped c s).motorValue = s.motorValue := rfl
@[simp] theorem setLidarStopped_motorTime (c : Nibble) (s : State) : (setLidarStopped c s).motorTime = s.motorTime := rfl
@[simp] theorem setLidarStopped_pumpBitmask (c : Nibble) (s : State) : (setLidarStopped c s).pumpBitmask = s.pumpBitmask := rfl
@[simp] theorem setLidarStopped_pendCount (c : Nibble) (s : State) : (setLidarStopped c s).pendCount = s.pendCount := rfl
@[simp] theorem setLidarStopped_pendLen (c : Nibble) (s : State) : (setLidarStopped c s).pendLen = s.pendLen := rfl
@[simp] theorem setLidarStopped_pendIDs (c : Nibble) (s : State) : (setLidarStopped c s).pendIDs = s.pendIDs := rfl
@[simp] theorem setLidarStopped_slot (c : Nibble) (s : State) : (setLidarStopped c s).slot = s.slot := rfl
@[simp] theorem setLidarStopped_pollCursor (c : Nibble) (s : State) : (setLidarStopped c s).pollCursor = s.pollCursor := rfl
@[simp] theorem setLidarStopped_rxDiscard (c : Nibble) (s : State) : (setLidarStopped c s).rxDiscard = s.rxDiscard := rfl
@[simp] theorem setLidarStopped_rxPos (c : Nibble) (s : State) : (setLidarStopped c s).rxPos = s.rxPos := rfl
@[simp] theorem setLidarStopped_rxBuf (c : Nibble) (s : State) : (setLidarStopped c s).rxBuf = s.rxBuf := rfl
@[simp] theorem setLidarStopped_fault (c : Nibble) (s : State) : (setLidarStopped c s).fault = s.fault := rfl
@[simp] theorem setLidarStopped_tx (c : Nibble) (s : State) : (setLidarStopped c s).tx = s.tx := rfl
@[simp] theorem setLidarStopped_schedule (c : Nibble) (s : State) : (setLidarStopped c s).schedule = s.schedule := rfl

/-! ### setTracking -/

@[simp] theorem setTracking_vars (c : Nibble) (s : State) : (setTracking c s).vars = s.vars := rfl
@[simp] theorem setTracking_lidarStopped (c : Nibble) (s : State) : (setTracking c s).lidarStopped = s.lidarStopped := rfl
@[simp] theorem setTracking_tracking (c : Nibble) (s : State) : (setTracking c s).tracking = b2bool c := rfl
@[simp] theorem setTracking_tickTarget (c : Nibble) (s : State) : (setTracking c s).tickTarget = s.tickTarget := rfl
@[simp] theorem setTracking_motorID (c : Nibble) (s : State) : (setTracking c s).motorID = s.motorID := rfl
@[simp] theorem setTracking_motorValue (c : Nibble) (s : State) : (setTracking c s).motorValue = s.motorValue := rfl
@[simp] theorem setTracking_motorTime (c : Nibble) (s : State) : (setTracking c s).motorTime = s.motorTime := rfl
@[simp] theorem setTracking_pumpBitmask (c : Nibble) (s : State) : (setTracking c s).pumpBitmask = s.pumpBitmask := rfl
@[simp] theorem setTracking_pendCount (c : Nibble) (s : State) : (setTracking c s).pendCount = s.pendCount := rfl
@[simp] theorem setTracking_pendLen (c : Nibble) (s : State) : (setTracking c s).pendLen = s.pendLen := rfl
@[simp] theorem setTracking_pendIDs (c : Nibble) (s : State) : (setTracking c s).pendIDs = s.pendIDs := rfl
@[simp] theorem setTracking_slot (c : Nibble) (s : State) : (setTracking c s).slot = s.slot := rfl
@[simp] theorem setTracking_pollCursor (c : Nibble) (s : State) : (setTracking c s).pollCursor = s.pollCursor := rfl
@[simp] theorem setTracking_rxDiscard (c : Nibble) (s : State) : (setTracking c s).rxDiscard = s.rxDiscard := rfl
@[simp] theorem setTracking_rxPos (c : Nibble) (s : State) : (setTracking c s).rxPos = s.rxPos := rfl
@[simp] theorem setTracking_rxBuf (c : Nibble) (s : State) : (setTracking c s).rxBuf = s.rxBuf := rfl
@[simp] theorem setTracking_fault (c : Nibble) (s : State) : (setTracking c s).fault = s.fault := rfl
@[simp] theorem setTracking_tx (c : Nibble) (s : State) : (setTracking c s).tx = s.tx := rfl
@[simp] theorem setTracking_schedule (c : Nibble) (s : State) : (setTracking c s).schedule = s.schedule := rfl

/-! ### captureTarget -/

@[simp] theorem captureTarget_vars (v : Bits16) (s : State) : (captureTarget v s).vars = s.vars := rfl
@[simp] theorem captureTarget_lidarStopped (v : Bits16) (s : State) : (captureTarget v s).lidarStopped = s.lidarStopped := rfl
@[simp] theorem captureTarget_tracking (v : Bits16) (s : State) : (captureTarget v s).tracking = s.tracking := rfl
@[simp] theorem captureTarget_tickTarget (v : Bits16) (s : State) : (captureTarget v s).tickTarget = v := rfl
@[simp] theorem captureTarget_motorID (v : Bits16) (s : State) : (captureTarget v s).motorID = s.motorID := rfl
@[simp] theorem captureTarget_motorValue (v : Bits16) (s : State) : (captureTarget v s).motorValue = s.motorValue := rfl
@[simp] theorem captureTarget_motorTime (v : Bits16) (s : State) : (captureTarget v s).motorTime = s.motorTime := rfl
@[simp] theorem captureTarget_pumpBitmask (v : Bits16) (s : State) : (captureTarget v s).pumpBitmask = s.pumpBitmask := rfl
@[simp] theorem captureTarget_pendCount (v : Bits16) (s : State) : (captureTarget v s).pendCount = s.pendCount := rfl
@[simp] theorem captureTarget_pendLen (v : Bits16) (s : State) : (captureTarget v s).pendLen = s.pendLen := rfl
@[simp] theorem captureTarget_pendIDs (v : Bits16) (s : State) : (captureTarget v s).pendIDs = s.pendIDs := rfl
@[simp] theorem captureTarget_slot (v : Bits16) (s : State) : (captureTarget v s).slot = s.slot := rfl
@[simp] theorem captureTarget_pollCursor (v : Bits16) (s : State) : (captureTarget v s).pollCursor = s.pollCursor := rfl
@[simp] theorem captureTarget_rxDiscard (v : Bits16) (s : State) : (captureTarget v s).rxDiscard = s.rxDiscard := rfl
@[simp] theorem captureTarget_rxPos (v : Bits16) (s : State) : (captureTarget v s).rxPos = s.rxPos := rfl
@[simp] theorem captureTarget_rxBuf (v : Bits16) (s : State) : (captureTarget v s).rxBuf = s.rxBuf := rfl
@[simp] theorem captureTarget_fault (v : Bits16) (s : State) : (captureTarget v s).fault = s.fault := rfl
@[simp] theorem captureTarget_tx (v : Bits16) (s : State) : (captureTarget v s).tx = s.tx := rfl
@[simp] theorem captureTarget_schedule (v : Bits16) (s : State) : (captureTarget v s).schedule = s.schedule := rfl

/-! ### storeByte -/

@[simp] theorem storeByte_vars (b : Byte) (s : State) : (storeByte b s).vars = s.vars := rfl
@[simp] theorem storeByte_lidarStopped (b : Byte) (s : State) : (storeByte b s).lidarStopped = s.lidarStopped := rfl
@[simp] theorem storeByte_tracking (b : Byte) (s : State) : (storeByte b s).tracking = s.tracking := rfl
@[simp] theorem storeByte_tickTarget (b : Byte) (s : State) : (storeByte b s).tickTarget = s.tickTarget := rfl
@[simp] theorem storeByte_motorID (b : Byte) (s : State) : (storeByte b s).motorID = s.motorID := rfl
@[simp] theorem storeByte_motorValue (b : Byte) (s : State) : (storeByte b s).motorValue = s.motorValue := rfl
@[simp] theorem storeByte_motorTime (b : Byte) (s : State) : (storeByte b s).motorTime = s.motorTime := rfl
@[simp] theorem storeByte_pumpBitmask (b : Byte) (s : State) : (storeByte b s).pumpBitmask = s.pumpBitmask := rfl
@[simp] theorem storeByte_pendCount (b : Byte) (s : State) : (storeByte b s).pendCount = s.pendCount := rfl
@[simp] theorem storeByte_pendLen (b : Byte) (s : State) : (storeByte b s).pendLen = s.pendLen := rfl
@[simp] theorem storeByte_pendIDs (b : Byte) (s : State) : (storeByte b s).pendIDs = s.pendIDs := rfl
@[simp] theorem storeByte_slot (b : Byte) (s : State) : (storeByte b s).slot = s.slot := rfl
@[simp] theorem storeByte_pollCursor (b : Byte) (s : State) : (storeByte b s).pollCursor = s.pollCursor := rfl
@[simp] theorem storeByte_rxDiscard (b : Byte) (s : State) : (storeByte b s).rxDiscard = s.rxDiscard := rfl
@[simp] theorem storeByte_rxPos (b : Byte) (s : State) : (storeByte b s).rxPos = s.rxPos := rfl
@[simp] theorem storeByte_rxBuf (b : Byte) (s : State) : (storeByte b s).rxBuf = s.rxBuf.set s.rxPos.val (some b) s.rxPos.isLt := rfl
@[simp] theorem storeByte_fault (b : Byte) (s : State) : (storeByte b s).fault = s.fault := rfl
@[simp] theorem storeByte_tx (b : Byte) (s : State) : (storeByte b s).tx = s.tx := rfl
@[simp] theorem storeByte_schedule (b : Byte) (s : State) : (storeByte b s).schedule = s.schedule := rfl

/-! ### advanceCursor -/

@[simp] theorem advanceCursor_vars (s : State) : (advanceCursor s).vars = s.vars := rfl
@[simp] theorem advanceCursor_lidarStopped (s : State) : (advanceCursor s).lidarStopped = s.lidarStopped := rfl
@[simp] theorem advanceCursor_tracking (s : State) : (advanceCursor s).tracking = s.tracking := rfl
@[simp] theorem advanceCursor_tickTarget (s : State) : (advanceCursor s).tickTarget = s.tickTarget := rfl
@[simp] theorem advanceCursor_motorID (s : State) : (advanceCursor s).motorID = s.motorID := rfl
@[simp] theorem advanceCursor_motorValue (s : State) : (advanceCursor s).motorValue = s.motorValue := rfl
@[simp] theorem advanceCursor_motorTime (s : State) : (advanceCursor s).motorTime = s.motorTime := rfl
@[simp] theorem advanceCursor_pumpBitmask (s : State) : (advanceCursor s).pumpBitmask = s.pumpBitmask := rfl
@[simp] theorem advanceCursor_pendCount (s : State) : (advanceCursor s).pendCount = s.pendCount := rfl
@[simp] theorem advanceCursor_pendLen (s : State) : (advanceCursor s).pendLen = s.pendLen := rfl
@[simp] theorem advanceCursor_pendIDs (s : State) : (advanceCursor s).pendIDs = s.pendIDs := rfl
@[simp] theorem advanceCursor_slot (s : State) : (advanceCursor s).slot = s.slot := rfl
@[simp] theorem advanceCursor_pollCursor (s : State) : (advanceCursor s).pollCursor = s.pollCursor + 1 := rfl
@[simp] theorem advanceCursor_rxDiscard (s : State) : (advanceCursor s).rxDiscard = s.rxDiscard := rfl
@[simp] theorem advanceCursor_rxPos (s : State) : (advanceCursor s).rxPos = s.rxPos := rfl
@[simp] theorem advanceCursor_rxBuf (s : State) : (advanceCursor s).rxBuf = s.rxBuf := rfl
@[simp] theorem advanceCursor_fault (s : State) : (advanceCursor s).fault = s.fault := rfl
@[simp] theorem advanceCursor_tx (s : State) : (advanceCursor s).tx = s.tx := rfl
@[simp] theorem advanceCursor_schedule (s : State) : (advanceCursor s).schedule = s.schedule := rfl

/-! ### dropMove -/

@[simp] theorem dropMove_vars (s : State) : (dropMove s).vars = s.vars := rfl
@[simp] theorem dropMove_lidarStopped (s : State) : (dropMove s).lidarStopped = s.lidarStopped := rfl
@[simp] theorem dropMove_tracking (s : State) : (dropMove s).tracking = s.tracking := rfl
@[simp] theorem dropMove_tickTarget (s : State) : (dropMove s).tickTarget = s.tickTarget := rfl
@[simp] theorem dropMove_motorID (s : State) : (dropMove s).motorID = s.motorID := rfl
@[simp] theorem dropMove_motorValue (s : State) : (dropMove s).motorValue = s.motorValue := rfl
@[simp] theorem dropMove_motorTime (s : State) : (dropMove s).motorTime = s.motorTime := rfl
@[simp] theorem dropMove_pumpBitmask (s : State) : (dropMove s).pumpBitmask = s.pumpBitmask := rfl
@[simp] theorem dropMove_pendCount (s : State) : (dropMove s).pendCount = s.pendCount := rfl
@[simp] theorem dropMove_pendLen (s : State) : (dropMove s).pendLen = s.pendLen := rfl
@[simp] theorem dropMove_pendIDs (s : State) : (dropMove s).pendIDs = s.pendIDs := rfl
@[simp] theorem dropMove_slot (s : State) : (dropMove s).slot = s.slot := rfl
@[simp] theorem dropMove_pollCursor (s : State) : (dropMove s).pollCursor = s.pollCursor := rfl
@[simp] theorem dropMove_rxDiscard (s : State) : (dropMove s).rxDiscard = s.rxDiscard := rfl
@[simp] theorem dropMove_rxPos (s : State) : (dropMove s).rxPos = s.rxPos := rfl
@[simp] theorem dropMove_rxBuf (s : State) : (dropMove s).rxBuf = s.rxBuf := rfl
@[simp] theorem dropMove_fault (s : State) : (dropMove s).fault = s.fault := rfl
@[simp] theorem dropMove_tx (s : State) : (dropMove s).tx = s.tx := rfl
@[simp] theorem dropMove_schedule (s : State) : (dropMove s).schedule = s.schedule.tail := rfl

/-! ### captureValue -/

@[simp] theorem captureValue_vars (v : Byte) (w : Bits16) (s : State) : (captureValue v w s).vars = s.vars := rfl
@[simp] theorem captureValue_lidarStopped (v : Byte) (w : Bits16) (s : State) : (captureValue v w s).lidarStopped = s.lidarStopped := rfl
@[simp] theorem captureValue_tracking (v : Byte) (w : Bits16) (s : State) : (captureValue v w s).tracking = s.tracking := rfl
@[simp] theorem captureValue_tickTarget (v : Byte) (w : Bits16) (s : State) : (captureValue v w s).tickTarget = s.tickTarget := rfl
@[simp] theorem captureValue_motorID (v : Byte) (w : Bits16) (s : State) : (captureValue v w s).motorID = v := rfl
@[simp] theorem captureValue_motorValue (v : Byte) (w : Bits16) (s : State) : (captureValue v w s).motorValue = w := rfl
@[simp] theorem captureValue_motorTime (v : Byte) (w : Bits16) (s : State) : (captureValue v w s).motorTime = s.motorTime := rfl
@[simp] theorem captureValue_pumpBitmask (v : Byte) (w : Bits16) (s : State) : (captureValue v w s).pumpBitmask = s.pumpBitmask := rfl
@[simp] theorem captureValue_pendCount (v : Byte) (w : Bits16) (s : State) : (captureValue v w s).pendCount = s.pendCount := rfl
@[simp] theorem captureValue_pendLen (v : Byte) (w : Bits16) (s : State) : (captureValue v w s).pendLen = s.pendLen := rfl
@[simp] theorem captureValue_pendIDs (v : Byte) (w : Bits16) (s : State) : (captureValue v w s).pendIDs = s.pendIDs := rfl
@[simp] theorem captureValue_slot (v : Byte) (w : Bits16) (s : State) : (captureValue v w s).slot = s.slot := rfl
@[simp] theorem captureValue_pollCursor (v : Byte) (w : Bits16) (s : State) : (captureValue v w s).pollCursor = s.pollCursor := rfl
@[simp] theorem captureValue_rxDiscard (v : Byte) (w : Bits16) (s : State) : (captureValue v w s).rxDiscard = s.rxDiscard := rfl
@[simp] theorem captureValue_rxPos (v : Byte) (w : Bits16) (s : State) : (captureValue v w s).rxPos = s.rxPos := rfl
@[simp] theorem captureValue_rxBuf (v : Byte) (w : Bits16) (s : State) : (captureValue v w s).rxBuf = s.rxBuf := rfl
@[simp] theorem captureValue_fault (v : Byte) (w : Bits16) (s : State) : (captureValue v w s).fault = s.fault := rfl
@[simp] theorem captureValue_tx (v : Byte) (w : Bits16) (s : State) : (captureValue v w s).tx = s.tx := rfl
@[simp] theorem captureValue_schedule (v : Byte) (w : Bits16) (s : State) : (captureValue v w s).schedule = s.schedule := rfl

/-! ### captureTime -/

@[simp] theorem captureTime_vars (v : Byte) (w : Bits16) (s : State) : (captureTime v w s).vars = s.vars := rfl
@[simp] theorem captureTime_lidarStopped (v : Byte) (w : Bits16) (s : State) : (captureTime v w s).lidarStopped = s.lidarStopped := rfl
@[simp] theorem captureTime_tracking (v : Byte) (w : Bits16) (s : State) : (captureTime v w s).tracking = s.tracking := rfl
@[simp] theorem captureTime_tickTarget (v : Byte) (w : Bits16) (s : State) : (captureTime v w s).tickTarget = s.tickTarget := rfl
@[simp] theorem captureTime_motorID (v : Byte) (w : Bits16) (s : State) : (captureTime v w s).motorID = v := rfl
@[simp] theorem captureTime_motorValue (v : Byte) (w : Bits16) (s : State) : (captureTime v w s).motorValue = s.motorValue := rfl
@[simp] theorem captureTime_motorTime (v : Byte) (w : Bits16) (s : State) : (captureTime v w s).motorTime = w := rfl
@[simp] theorem captureTime_pumpBitmask (v : Byte) (w : Bits16) (s : State) : (captureTime v w s).pumpBitmask = s.pumpBitmask := rfl
@[simp] theorem captureTime_pendCount (v : Byte) (w : Bits16) (s : State) : (captureTime v w s).pendCount = s.pendCount := rfl
@[simp] theorem captureTime_pendLen (v : Byte) (w : Bits16) (s : State) : (captureTime v w s).pendLen = s.pendLen := rfl
@[simp] theorem captureTime_pendIDs (v : Byte) (w : Bits16) (s : State) : (captureTime v w s).pendIDs = s.pendIDs := rfl
@[simp] theorem captureTime_slot (v : Byte) (w : Bits16) (s : State) : (captureTime v w s).slot = s.slot := rfl
@[simp] theorem captureTime_pollCursor (v : Byte) (w : Bits16) (s : State) : (captureTime v w s).pollCursor = s.pollCursor := rfl
@[simp] theorem captureTime_rxDiscard (v : Byte) (w : Bits16) (s : State) : (captureTime v w s).rxDiscard = s.rxDiscard := rfl
@[simp] theorem captureTime_rxPos (v : Byte) (w : Bits16) (s : State) : (captureTime v w s).rxPos = s.rxPos := rfl
@[simp] theorem captureTime_rxBuf (v : Byte) (w : Bits16) (s : State) : (captureTime v w s).rxBuf = s.rxBuf := rfl
@[simp] theorem captureTime_fault (v : Byte) (w : Bits16) (s : State) : (captureTime v w s).fault = s.fault := rfl
@[simp] theorem captureTime_tx (v : Byte) (w : Bits16) (s : State) : (captureTime v w s).tx = s.tx := rfl
@[simp] theorem captureTime_schedule (v : Byte) (w : Bits16) (s : State) : (captureTime v w s).schedule = s.schedule := rfl

/-! ### setPumps -/

@[simp] theorem setPumps_vars (w : Bits16) (s : State) : (setPumps w s).vars = s.vars := rfl
@[simp] theorem setPumps_lidarStopped (w : Bits16) (s : State) : (setPumps w s).lidarStopped = s.lidarStopped := rfl
@[simp] theorem setPumps_tracking (w : Bits16) (s : State) : (setPumps w s).tracking = s.tracking := rfl
@[simp] theorem setPumps_tickTarget (w : Bits16) (s : State) : (setPumps w s).tickTarget = s.tickTarget := rfl
@[simp] theorem setPumps_motorID (w : Bits16) (s : State) : (setPumps w s).motorID = s.motorID := rfl
@[simp] theorem setPumps_motorValue (w : Bits16) (s : State) : (setPumps w s).motorValue = s.motorValue := rfl
@[simp] theorem setPumps_motorTime (w : Bits16) (s : State) : (setPumps w s).motorTime = s.motorTime := rfl
@[simp] theorem setPumps_pumpBitmask (w : Bits16) (s : State) : (setPumps w s).pumpBitmask = w := rfl
@[simp] theorem setPumps_pendCount (w : Bits16) (s : State) : (setPumps w s).pendCount = s.pendCount := rfl
@[simp] theorem setPumps_pendLen (w : Bits16) (s : State) : (setPumps w s).pendLen = s.pendLen := rfl
@[simp] theorem setPumps_pendIDs (w : Bits16) (s : State) : (setPumps w s).pendIDs = s.pendIDs := rfl
@[simp] theorem setPumps_slot (w : Bits16) (s : State) : (setPumps w s).slot = s.slot := rfl
@[simp] theorem setPumps_pollCursor (w : Bits16) (s : State) : (setPumps w s).pollCursor = s.pollCursor := rfl
@[simp] theorem setPumps_rxDiscard (w : Bits16) (s : State) : (setPumps w s).rxDiscard = s.rxDiscard := rfl
@[simp] theorem setPumps_rxPos (w : Bits16) (s : State) : (setPumps w s).rxPos = s.rxPos := rfl
@[simp] theorem setPumps_rxBuf (w : Bits16) (s : State) : (setPumps w s).rxBuf = s.rxBuf := rfl
@[simp] theorem setPumps_fault (w : Bits16) (s : State) : (setPumps w s).fault = s.fault := rfl
@[simp] theorem setPumps_tx (w : Bits16) (s : State) : (setPumps w s).tx = s.tx := rfl
@[simp] theorem setPumps_schedule (w : Bits16) (s : State) : (setPumps w s).schedule = s.schedule := rfl

/-! ### discardByte -/

@[simp] theorem discardByte_vars (s : State) : (discardByte s).vars = s.vars := rfl
@[simp] theorem discardByte_lidarStopped (s : State) : (discardByte s).lidarStopped = s.lidarStopped := rfl
@[simp] theorem discardByte_tracking (s : State) : (discardByte s).tracking = s.tracking := rfl
@[simp] theorem discardByte_tickTarget (s : State) : (discardByte s).tickTarget = s.tickTarget := rfl
@[simp] theorem discardByte_motorID (s : State) : (discardByte s).motorID = s.motorID := rfl
@[simp] theorem discardByte_motorValue (s : State) : (discardByte s).motorValue = s.motorValue := rfl
@[simp] theorem discardByte_motorTime (s : State) : (discardByte s).motorTime = s.motorTime := rfl
@[simp] theorem discardByte_pumpBitmask (s : State) : (discardByte s).pumpBitmask = s.pumpBitmask := rfl
@[simp] theorem discardByte_pendCount (s : State) : (discardByte s).pendCount = s.pendCount := rfl
@[simp] theorem discardByte_pendLen (s : State) : (discardByte s).pendLen = s.pendLen := rfl
@[simp] theorem discardByte_pendIDs (s : State) : (discardByte s).pendIDs = s.pendIDs := rfl
@[simp] theorem discardByte_slot (s : State) : (discardByte s).slot = s.slot := rfl
@[simp] theorem discardByte_pollCursor (s : State) : (discardByte s).pollCursor = s.pollCursor := rfl
@[simp] theorem discardByte_rxDiscard (s : State) : (discardByte s).rxDiscard = s.rxDiscard - 1 := rfl
@[simp] theorem discardByte_rxPos (s : State) : (discardByte s).rxPos = s.rxPos := rfl
@[simp] theorem discardByte_rxBuf (s : State) : (discardByte s).rxBuf = s.rxBuf := rfl
@[simp] theorem discardByte_fault (s : State) : (discardByte s).fault = s.fault := rfl
@[simp] theorem discardByte_tx (s : State) : (discardByte s).tx = s.tx := rfl
@[simp] theorem discardByte_schedule (s : State) : (discardByte s).schedule = s.schedule := rfl

/-! ### advancePosition -/

@[simp] theorem advancePosition_vars (s : State) : (advancePosition s).vars = s.vars := rfl
@[simp] theorem advancePosition_lidarStopped (s : State) : (advancePosition s).lidarStopped = s.lidarStopped := rfl
@[simp] theorem advancePosition_tracking (s : State) : (advancePosition s).tracking = s.tracking := rfl
@[simp] theorem advancePosition_tickTarget (s : State) : (advancePosition s).tickTarget = s.tickTarget := rfl
@[simp] theorem advancePosition_motorID (s : State) : (advancePosition s).motorID = s.motorID := rfl
@[simp] theorem advancePosition_motorValue (s : State) : (advancePosition s).motorValue = s.motorValue := rfl
@[simp] theorem advancePosition_motorTime (s : State) : (advancePosition s).motorTime = s.motorTime := rfl
@[simp] theorem advancePosition_pumpBitmask (s : State) : (advancePosition s).pumpBitmask = s.pumpBitmask := rfl
@[simp] theorem advancePosition_pendCount (s : State) : (advancePosition s).pendCount = s.pendCount := rfl
@[simp] theorem advancePosition_pendLen (s : State) : (advancePosition s).pendLen = s.pendLen := rfl
@[simp] theorem advancePosition_pendIDs (s : State) : (advancePosition s).pendIDs = s.pendIDs := rfl
@[simp] theorem advancePosition_slot (s : State) : (advancePosition s).slot = s.slot := rfl
@[simp] theorem advancePosition_pollCursor (s : State) : (advancePosition s).pollCursor = s.pollCursor := rfl
@[simp] theorem advancePosition_rxDiscard (s : State) : (advancePosition s).rxDiscard = s.rxDiscard := rfl
@[simp] theorem advancePosition_rxPos (s : State) : (advancePosition s).rxPos = s.rxPos + 1 := rfl
@[simp] theorem advancePosition_rxBuf (s : State) : (advancePosition s).rxBuf = s.rxBuf := rfl
@[simp] theorem advancePosition_fault (s : State) : (advancePosition s).fault = s.fault := rfl
@[simp] theorem advancePosition_tx (s : State) : (advancePosition s).tx = s.tx := rfl
@[simp] theorem advancePosition_schedule (s : State) : (advancePosition s).schedule = s.schedule := rfl

/-! ### resetPosition -/

@[simp] theorem resetPosition_vars (s : State) : (resetPosition s).vars = s.vars := rfl
@[simp] theorem resetPosition_lidarStopped (s : State) : (resetPosition s).lidarStopped = s.lidarStopped := rfl
@[simp] theorem resetPosition_tracking (s : State) : (resetPosition s).tracking = s.tracking := rfl
@[simp] theorem resetPosition_tickTarget (s : State) : (resetPosition s).tickTarget = s.tickTarget := rfl
@[simp] theorem resetPosition_motorID (s : State) : (resetPosition s).motorID = s.motorID := rfl
@[simp] theorem resetPosition_motorValue (s : State) : (resetPosition s).motorValue = s.motorValue := rfl
@[simp] theorem resetPosition_motorTime (s : State) : (resetPosition s).motorTime = s.motorTime := rfl
@[simp] theorem resetPosition_pumpBitmask (s : State) : (resetPosition s).pumpBitmask = s.pumpBitmask := rfl
@[simp] theorem resetPosition_pendCount (s : State) : (resetPosition s).pendCount = s.pendCount := rfl
@[simp] theorem resetPosition_pendLen (s : State) : (resetPosition s).pendLen = s.pendLen := rfl
@[simp] theorem resetPosition_pendIDs (s : State) : (resetPosition s).pendIDs = s.pendIDs := rfl
@[simp] theorem resetPosition_slot (s : State) : (resetPosition s).slot = s.slot := rfl
@[simp] theorem resetPosition_pollCursor (s : State) : (resetPosition s).pollCursor = s.pollCursor := rfl
@[simp] theorem resetPosition_rxDiscard (s : State) : (resetPosition s).rxDiscard = s.rxDiscard := rfl
@[simp] theorem resetPosition_rxPos (s : State) : (resetPosition s).rxPos = 0 := rfl
@[simp] theorem resetPosition_rxBuf (s : State) : (resetPosition s).rxBuf = s.rxBuf := rfl
@[simp] theorem resetPosition_fault (s : State) : (resetPosition s).fault = s.fault := rfl
@[simp] theorem resetPosition_tx (s : State) : (resetPosition s).tx = s.tx := rfl
@[simp] theorem resetPosition_schedule (s : State) : (resetPosition s).schedule = s.schedule := rfl

/-! ### powerUp -/

@[simp] theorem powerUp_vars (s : State) : (powerUp s).vars = State.reset.vars := rfl
@[simp] theorem powerUp_lidarStopped (s : State) : (powerUp s).lidarStopped = State.reset.lidarStopped := rfl
@[simp] theorem powerUp_tracking (s : State) : (powerUp s).tracking = State.reset.tracking := rfl
@[simp] theorem powerUp_tickTarget (s : State) : (powerUp s).tickTarget = State.reset.tickTarget := rfl
@[simp] theorem powerUp_motorID (s : State) : (powerUp s).motorID = State.reset.motorID := rfl
@[simp] theorem powerUp_motorValue (s : State) : (powerUp s).motorValue = State.reset.motorValue := rfl
@[simp] theorem powerUp_motorTime (s : State) : (powerUp s).motorTime = State.reset.motorTime := rfl
@[simp] theorem powerUp_pumpBitmask (s : State) : (powerUp s).pumpBitmask = State.reset.pumpBitmask := rfl
@[simp] theorem powerUp_pendCount (s : State) : (powerUp s).pendCount = State.reset.pendCount := rfl
@[simp] theorem powerUp_pendLen (s : State) : (powerUp s).pendLen = State.reset.pendLen := rfl
@[simp] theorem powerUp_pendIDs (s : State) : (powerUp s).pendIDs = State.reset.pendIDs := rfl
@[simp] theorem powerUp_slot (s : State) : (powerUp s).slot = State.reset.slot := rfl
@[simp] theorem powerUp_pollCursor (s : State) : (powerUp s).pollCursor = State.reset.pollCursor := rfl
@[simp] theorem powerUp_rxDiscard (s : State) : (powerUp s).rxDiscard = State.reset.rxDiscard := rfl
@[simp] theorem powerUp_rxPos (s : State) : (powerUp s).rxPos = State.reset.rxPos := rfl
@[simp] theorem powerUp_rxBuf (s : State) : (powerUp s).rxBuf = State.reset.rxBuf := rfl
@[simp] theorem powerUp_fault (s : State) : (powerUp s).fault = State.reset.fault := rfl
@[simp] theorem powerUp_tx (s : State) : (powerUp s).tx = State.reset.tx := rfl
@[simp] theorem powerUp_schedule (s : State) : (powerUp s).schedule = s.schedule := rfl

end Sys2Proof.Machine
end

