-- ==== Sys2Proof/Laws/Ops.lean ====
section
/-! SUPPORT. One lemma per shared operation: what it can do. The inversion lemmas of evaluate, pollStep, rxStep and
step say everything a step can do; invariants follow from them. -/

namespace Sys2Proof.Machine

/-! ### Operands -/

theorem b2bool_eq (n : Nibble) : b2bool n = decide (n.toNat ≠ 0) := by
  revert n
  decide

theorem floatBits_eq (a b : Bits16) : floatBits a b = a ++ b := shiftLeft_or_eq_append a b

/-! ### Feedback frames -/

@[simp] theorem framesBytes_nil : framesBytes [] = [] := rfl

@[simp] theorem framesBytes_cons (f : Feedback) (fs : List Feedback) :
    framesBytes (f :: fs) = f.bytes ++ framesBytes fs := rfl

@[simp] theorem framesBytes_append (fs gs : List Feedback) :
    framesBytes (fs ++ gs) = framesBytes fs ++ framesBytes gs := by
  simp [framesBytes]

theorem bytes_ack (id : Nibble) : (Feedback.ack id).bytes = [feedbackHead feedbackCodes.ack id, 0, 0, 0, 0] := by
  simp [Feedback.bytes, Feedback.bytesWith, bigEndian32, Feedback.payload, FeedbackCodes.code, Feedback.kind,
    FeedbackCodes.lowNibble]

theorem bytes_term (id : Nibble) :
    (Feedback.term id).bytes = [feedbackHead feedbackCodes.term id, 0, 0, 0, 0] := by
  simp [Feedback.bytes, Feedback.bytesWith, bigEndian32, Feedback.payload, FeedbackCodes.code, Feedback.kind,
    FeedbackCodes.lowNibble]

theorem bytes_var (i : Nibble) (p : Bits32) :
    (Feedback.var i p).bytes = feedbackHead feedbackCodes.var i :: bigEndian32 p := rfl

theorem bytes_trk (p : Bits32) :
    (Feedback.trk p).bytes = feedbackHead feedbackCodes.track feedbackCodes.trackNibble :: bigEndian32 p := rfl

@[simp] theorem length_bytes (f : Feedback) : f.bytes.length = 5 := rfl

@[simp] theorem length_framesBytes (fs : List Feedback) : (framesBytes fs).length = 5 * fs.length := by
  induction fs with
  | nil => rfl
  | cons f fs ih => simp [ih]; omega

@[simp] theorem emitAck_eq (id : Nibble) (s : State) : emitAck id s = emit (.ack id) s := rfl

@[simp] theorem emitTerm_eq (id : Nibble) (s : State) : emitTerm id s = emit (.term id) s := rfl

@[simp] theorem emitVar_eq (i : Nibble) (p : Bits32) (s : State) : emitVar i p s = emit (.var i p) s := rfl

@[simp] theorem emitTrack_eq (p : Bits32) (s : State) : emitTrack p s = emit (.trk p) s := rfl

/-- Emitting a list of frames one by one appends their bytes and does nothing else. -/
theorem foldl_emit (fs : List Feedback) (s : State) :
    fs.foldl (fun t f => emit f t) s = { s with tx := s.tx ++ framesBytes fs } := by
  induction fs generalizing s with
  | nil => simp
  | cons f fs ih => rw [List.foldl_cons, ih]; simp [emit]

/-- The burst appends the 500 frames and does nothing else (R114). -/
theorem streamTracking_eq (s : State) :
    streamTracking s = { s with tx := s.tx ++ framesBytes trackingBurst } := by
  rw [← foldl_emit, trackingBurst, List.foldl_map]
  rfl

theorem burstIfTracking_eq (s : State) :
    burstIfTracking s =
      { s with tx := s.tx ++ framesBytes (if s.tracking then trackingBurst else []) } := by
  unfold burstIfTracking
  split
  · exact streamTracking_eq s
  · simp

/-! ### Variables and slots -/

theorem readVar_writeVar_same (i : Nibble) (p : Bits32) (s : State) :
    readVar i (writeVar i p s) = p := by
  simp [readVar]

theorem readVar_writeVar_ne {i j : Nibble} (h : i ≠ j) (p : Bits32) (s : State) :
    readVar i (writeVar j p s) = readVar i s := by
  have hn : j.toNat ≠ i.toNat := fun e => h (BitVec.eq_of_toNat_eq e.symm)
  simp [readVar, hn]

@[simp] theorem readSlot_install_same (i : Nibble) (k : Slot) (s : State) :
    readSlot i (install i k s) = k := by
  simp [readSlot]

theorem readSlot_install_ne {i j : Nibble} (h : i ≠ j) (k : Slot) (s : State) :
    readSlot i (install j k s) = readSlot i s := by
  have hn : j.toNat ≠ i.toNat := fun e => h (BitVec.eq_of_toNat_eq e.symm)
  simp [readSlot, hn]

/-- Reading a slot depends on the slots alone. -/
theorem readSlot_congr {s t : State} (h : t.slot = s.slot) (i : Nibble) : readSlot i t = readSlot i s := by
  simp [readSlot, h]

/-- Reading a variable depends on the Variable Store alone. -/
theorem readVar_congr {s t : State} (h : t.vars = s.vars) (i : Nibble) : readVar i t = readVar i s := by
  simp [readVar, h]

/-- Slots are equal when each reads the same. -/
theorem slot_ext {s t : State} (h : ∀ i, readSlot i t = readSlot i s) : t.slot = s.slot := by
  ext k hk : 1
  simpa [readSlot, Nat.mod_eq_of_lt hk] using h (BitVec.ofNat 4 k)

/-! ### The pending selection -/

@[simp] theorem installIfFilled_vars (s : State) : (installIfFilled s).vars = s.vars := by
  unfold installIfFilled; split <;> rfl

@[simp] theorem installIfFilled_lidarStopped (s : State) : (installIfFilled s).lidarStopped = s.lidarStopped := by
  unfold installIfFilled; split <;> rfl

@[simp] theorem installIfFilled_tracking (s : State) : (installIfFilled s).tracking = s.tracking := by
  unfold installIfFilled; split <;> rfl

@[simp] theorem installIfFilled_tickTarget (s : State) : (installIfFilled s).tickTarget = s.tickTarget := by
  unfold installIfFilled; split <;> rfl

@[simp] theorem installIfFilled_motorID (s : State) : (installIfFilled s).motorID = s.motorID := by
  unfold installIfFilled; split <;> rfl

@[simp] theorem installIfFilled_motorValue (s : State) : (installIfFilled s).motorValue = s.motorValue := by
  unfold installIfFilled; split <;> rfl

@[simp] theorem installIfFilled_motorTime (s : State) : (installIfFilled s).motorTime = s.motorTime := by
  unfold installIfFilled; split <;> rfl

@[simp] theorem installIfFilled_pumpBitmask (s : State) : (installIfFilled s).pumpBitmask = s.pumpBitmask := by
  unfold installIfFilled; split <;> rfl

@[simp] theorem installIfFilled_pendCount (s : State) : (installIfFilled s).pendCount = s.pendCount := by
  unfold installIfFilled; split <;> rfl

@[simp] theorem installIfFilled_pendLen (s : State) : (installIfFilled s).pendLen = s.pendLen := by
  unfold installIfFilled; split <;> rfl

@[simp] theorem installIfFilled_pendIDs (s : State) : (installIfFilled s).pendIDs = s.pendIDs := by
  unfold installIfFilled; split <;> rfl

@[simp] theorem installIfFilled_pollCursor (s : State) : (installIfFilled s).pollCursor = s.pollCursor := by
  unfold installIfFilled; split <;> rfl

@[simp] theorem installIfFilled_rxDiscard (s : State) : (installIfFilled s).rxDiscard = s.rxDiscard := by
  unfold installIfFilled; split <;> rfl

@[simp] theorem installIfFilled_rxPos (s : State) : (installIfFilled s).rxPos = s.rxPos := by
  unfold installIfFilled; split <;> rfl

@[simp] theorem installIfFilled_rxBuf (s : State) : (installIfFilled s).rxBuf = s.rxBuf := by
  unfold installIfFilled; split <;> rfl

@[simp] theorem installIfFilled_fault (s : State) : (installIfFilled s).fault = s.fault := by
  unfold installIfFilled; split <;> rfl

@[simp] theorem installIfFilled_tx (s : State) : (installIfFilled s).tx = s.tx := by
  unfold installIfFilled; split <;> rfl

@[simp] theorem installIfFilled_schedule (s : State) : (installIfFilled s).schedule = s.schedule := by
  unfold installIfFilled; split <;> rfl

/-- The MOTORS continuation appears in its slot when the count is 0, and no other slot changes (R118). -/
theorem readSlot_installIfFilled (j : Nibble) (s : State) :
    readSlot j (installIfFilled s) =
      if j = Config.motorsSlot ∧ s.pendCount = 0 then .fireNext Config.motorsSlot else readSlot j s := by
  unfold installIfFilled
  by_cases h0 : s.pendCount = 0
  · by_cases hj : j = Config.motorsSlot
    · rw [if_pos h0, if_pos ⟨hj, h0⟩, hj, readSlot_install_same]
    · rw [if_pos h0, if_neg (fun h => hj h.1), readSlot_install_ne hj]
  · rw [if_neg h0, if_neg (fun h => h0 h.2)]

/-- A count that is not 0 is one more than the count after the fill (R118). -/
theorem fillPending_count {s : State} (h : s.pendCount ≠ 0) (v : Byte) :
    (fillPending v s).pendCount.toNat + 1 = s.pendCount.toNat := by
  have h' : s.pendCount.toNat ≠ 0 := fun e => h (BitVec.eq_of_toNat_eq e)
  rw [fillPending_pendCount, BitVec.toNat_sub]
  simp
  omega

/-- The fill writes the entry under the count and no other (R118). -/
theorem fillPending_entry {s : State} (h : s.pendCount ≠ 0) (v : Byte) (k : Nat) (hk : k < 15) :
    (fillPending v s).pendIDs[k] = if k + 1 = s.pendCount.toNat then some v else s.pendIDs[k] := by
  have h' : s.pendCount.toNat ≠ 0 := fun e => h (BitVec.eq_of_toNat_eq e)
  simp only [fillPending_pendIDs, Vector.getElem_setIfInBounds]
  by_cases hk1 : k + 1 = s.pendCount.toNat
  · rw [if_pos (by omega), if_pos hk1]
  · rw [if_neg (by omega), if_neg hk1]

/-! ### The Poller -/

/-- An evaluation writes the slot and the stream, as `afterEvaluation` and `firing` say (R144). -/
theorem evaluate_eq (i : Nibble) (s : State) :
    evaluate i s =
      { s with
        slot := s.slot.set i.toNat (afterEvaluation s.lidarStopped (readSlot i s)) i.isLt
        tx := s.tx ++ framesBytes (firing s.lidarStopped (readSlot i s)) } := by
  unfold evaluate
  cases h : readSlot i s with
  | idle =>
    have : s.slot.set i.toNat .idle i.isLt = s.slot := by
      rw [← h, readSlot, Vector.set_getElem_self]
    simp [afterEvaluation, firing, this]
  | awaitLidarRun target =>
    cases hl : s.lidarStopped with
    | true =>
      have : s.slot.set i.toNat (.awaitLidarRun target) i.isLt = s.slot := by
        rw [← h, readSlot, Vector.set_getElem_self]
      simp [afterEvaluation, firing, lidarRuns, this, ← hl]
    | false => simp [afterEvaluation, firing, lidarRuns, hl, fire, retire, install, emit]
  | fireNext target => simp [afterEvaluation, firing, fire, retire, install, emit]

/-- The Poller has a step exactly when the block is not stopped (R141). -/
theorem pollStep_next {s t : State} :
    pollStep s = .next t ↔ s.fault = none ∧ t = advanceCursor (evaluate s.pollCursor s) := by
  unfold pollStep
  cases s.fault <;> simp [eq_comm]

/-! ### The RX engine -/

/-- Whether the buffer holds a whole frame depends on the buffer alone. -/
theorem bufferedFrame_congr {s t : State} (h : t.rxBuf = s.rxBuf) : bufferedFrame t = bufferedFrame s := by
  simp [bufferedFrame, h]

/-- A buffer of five held bytes is the frame they spell (R91). -/
theorem bufferedFrame_of_rxBuf {s : State} {f : Frame}
    (h : s.rxBuf = #v[some f.byte0, some f.byte1, some f.byte2, some f.byte3, some f.byte4]) :
    bufferedFrame s = some f := by
  simp only [bufferedFrame, h]
  rfl

/-- The fifth byte completes a buffer that holds the other four (R91). -/
theorem storeByte_completes {s : State} {f : Frame} (hp : s.rxPos = 4)
    (h0 : s.rxBuf[0] = some f.byte0) (h1 : s.rxBuf[1] = some f.byte1)
    (h2 : s.rxBuf[2] = some f.byte2) (h3 : s.rxBuf[3] = some f.byte3) :
    (storeByte f.byte4 s).rxBuf =
      #v[some f.byte0, some f.byte1, some f.byte2, some f.byte3, some f.byte4] := by
  ext k hk : 1
  have : k = 0 ∨ k = 1 ∨ k = 2 ∨ k = 3 ∨ k = 4 := by omega
  rcases this with rfl | rfl | rfl | rfl | rfl <;> simp [h0, h1, h2, h3, hp]

/-- The acknowledged order is the decoded one (R92, R95). -/
theorem processFrame_eq (f : Frame) (s : State) :
    processFrame f s = exec (decodeFrame f) (emit (.ack (decodeFrame f).id) s) := by
  rw [decodeFrame_id]
  rfl

/-- Everything an RX step can do when it answers a next state (R90, R91, R92). -/
theorem rxStep_next {b : Byte} {s t : State} (h : rxStep b s = .next t) :
    s.fault = none ∧
      ((0 < s.rxDiscard ∧ t = discardByte s) ∨
       (s.rxDiscard = 0 ∧ s.rxPos ≠ 4 ∧ t = advancePosition (storeByte b s)) ∨
       (s.rxDiscard = 0 ∧ s.rxPos = 4 ∧ ∃ f, bufferedFrame (storeByte b s) = some f ∧
          processFrame f (resetPosition (storeByte b s)) = .next t)) := by
  unfold rxStep at h
  cases hf : s.fault with
  | some code => simp [hf] at h
  | none =>
    refine ⟨rfl, ?_⟩
    simp only [hf] at h
    split at h
    case isTrue hd => exact .inl ⟨hd, by simpa using h.symm⟩
    case isFalse hd =>
      unfold assembleByte at h
      split at h
      case isTrue hp =>
        refine .inr (.inr ⟨by omega, hp, ?_⟩)
        simp only [bufferedFrame_congr (resetPosition_rxBuf (storeByte b s))] at h
        cases hb : bufferedFrame (storeByte b s) with
        | none => simp [hb] at h
        | some f => exact ⟨f, rfl, by simpa [hb] using h⟩
      case isFalse hp => exact .inr (.inl ⟨by omega, hp, by simpa using h.symm⟩)

/-- A noise byte is discarded (R90). -/
theorem rxStep_discard {b : Byte} {s : State} (hf : s.fault = none) (hd : 0 < s.rxDiscard) :
    rxStep b s = .next (discardByte s) := by
  simp [rxStep, hf, hd]

/-- A byte before the frame's last enters the buffer (R91). -/
theorem rxStep_partial {b : Byte} {s : State} (hf : s.fault = none) (hd : s.rxDiscard = 0) (hp : s.rxPos ≠ 4) :
    rxStep b s = .next (advancePosition (storeByte b s)) := by
  simp [rxStep, hf, hd, assembleByte, hp]

/-- The frame's last byte runs its order (R91, R92). -/
theorem rxStep_frame {b : Byte} {f : Frame} {s : State} (hf : s.fault = none) (hd : s.rxDiscard = 0)
    (hp : s.rxPos = 4) (hb : bufferedFrame (storeByte b s) = some f) :
    rxStep b s =
      exec (decodeFrame f) (emit (.ack (decodeFrame f).id) (resetPosition (storeByte b s))) := by
  have hb' : bufferedFrame (resetPosition (storeByte b s)) = some f := hb
  simp [rxStep, hf, hd, assembleByte, hp, hb', processFrame_eq]

/-! ### The step -/

/-- The step of a scheduled byte is the RX engine's. -/
theorem step_rx {b : Byte} {s : State} (h : nextMove s = .rx b) : step s = rxStep b (dropMove s) := by
  simp [step, takeMove, h]

@[simp] theorem readSlot_dropMove (i : Nibble) (s : State) : readSlot i (dropMove s) = readSlot i s := rfl

/-- The handler's frame: everything but its effect, stated once for all orders (R97). -/
theorem exec_next (i : Instr) (s : State) :
    ∃ t, exec i s = .next t ∧ t.rxPos = s.rxPos ∧ t.rxBuf = s.rxBuf ∧ t.rxDiscard = s.rxDiscard ∧
      t.pollCursor = s.pollCursor ∧ t.schedule = s.schedule := by
  cases i with
  | motorValue c a b =>
    exact ⟨_, rfl, by simp [burstIfTracking_eq]⟩
  | motorsArg c a b =>
    by_cases h : s.pendCount = 0
    · exact ⟨_, if_pos h, by simp⟩
    · refine ⟨_, if_neg h, ?_⟩
      unfold installIfFilled
      split <;> simp
  | _ => exact ⟨_, rfl, by simp [retire]⟩

/-- Which handler can change which field of the actuators, the selection and the latch (R15 to R24, R31). -/
theorem exec_writes {i : Instr} {s t : State} (h : exec i s = .next t) :
    (t.vars ≠ s.vars → ∃ c a b, i = .setVar c a b) ∧
    (t.lidarStopped ≠ s.lidarStopped → ∃ c a b, i = .lidarToggle c a b) ∧
    (t.tracking ≠ s.tracking → ∃ c a b, i = .track c a b) ∧
    (t.tickTarget ≠ s.tickTarget → ∃ c a b, i = .move c a b ∨ i = .rotate c a b) ∧
    (t.motorID ≠ s.motorID → ∃ c a b, i = .motorValue c a b ∨ i = .motorTime c a b) ∧
    (t.motorValue ≠ s.motorValue → ∃ c a b, i = .motorValue c a b) ∧
    (t.motorTime ≠ s.motorTime → ∃ c a b, i = .motorTime c a b) ∧
    (t.pumpBitmask ≠ s.pumpBitmask → ∃ c a b, i = .pumps c a b) ∧
    (t.pendCount ≠ s.pendCount ∨ t.pendIDs ≠ s.pendIDs →
      ∃ c a b, i = .motors c a b ∨ i = .motorsArg c a b) ∧
    (t.pendLen ≠ s.pendLen → ∃ c a b, i = .motors c a b) ∧
    (t.fault ≠ s.fault →
      (∃ c a b, i = .motorsArg c a b) ∧ s.pendCount = 0 ∧ t = raiseFault .motorsArgUnderflow s) := by
  cases i with
  | motorsArg c a b =>
    by_cases h0 : s.pendCount = 0
    · rw [exec, execMotorsArg, if_pos h0] at h; cases h; simp [h0]
    · rw [exec, execMotorsArg, if_neg h0] at h; cases h; simp
  | motorValue c a b => cases h; simp [burstIfTracking_eq]
  | _ => cases h; simp [retire]

/-- Everything a step can do when it answers a next state (R10, R90 to R92, R141, R200). -/
theorem step_next {s t : State} (h : step s = .next t) :
    (nextMove s = .reset ∧ t = powerUp (dropMove s)) ∨
    (nextMove s = .poll ∧ s.fault = none ∧ t = advanceCursor (evaluate s.pollCursor (dropMove s))) ∨
    ∃ b, nextMove s = .rx b ∧ s.fault = none ∧
      ((0 < s.rxDiscard ∧ t = discardByte (dropMove s)) ∨
       (s.rxDiscard = 0 ∧ s.rxPos ≠ 4 ∧ t = advancePosition (storeByte b (dropMove s))) ∨
       (s.rxDiscard = 0 ∧ s.rxPos = 4 ∧ ∃ f, arrivingOrder s = some (decodeFrame f) ∧
          bufferedFrame (storeByte b s) = some f ∧
          processFrame f (resetPosition (storeByte b (dropMove s))) = .next t)) := by
  unfold step takeMove at h
  cases hm : nextMove s with
  | reset => exact .inl ⟨rfl, by simpa [hm] using h.symm⟩
  | poll =>
    simp only [hm] at h
    obtain ⟨hf, ht⟩ := pollStep_next.mp h
    exact .inr (.inl ⟨rfl, hf, ht⟩)
  | rx b =>
    simp only [hm] at h
    obtain ⟨hf, hd | hp | ⟨hd, hp, f, hb, ht⟩⟩ := rxStep_next h
    · exact .inr (.inr ⟨b, rfl, hf, .inl hd⟩)
    · exact .inr (.inr ⟨b, rfl, hf, .inr (.inl hp)⟩)
    · refine .inr (.inr ⟨b, rfl, hf, .inr (.inr ⟨hd, hp, f, ?_, hb, ht⟩)⟩)
      have hf' : s.fault = none := hf
      have hd' : s.rxDiscard = 0 := hd
      have hp' : s.rxPos = 4 := hp
      have hb' : bufferedFrame (storeByte b s) = some f := hb
      simp [arrivingOrder, hm, hf', hd', hp', hb']

end Sys2Proof.Machine
end

