-- ==== Sys2Proof/Laws/PerInstr.lean ====
section
/-! SUPPORT. Statements for all orders, made per constructor (LAWS.json). -/

namespace Sys2Proof.Laws.FrameLayout

/-- The encoding of an order is five bytes whose first holds the order's id high and its complement low (R60,
R69, R73), whatever the arguments are. -/
def Statement (i : Instr) : Prop :=
  (encode i).length = 5 ∧ (encode i).head? = some (i.id ++ i.complement)

/-- The first byte of R73 is the id and the complement side by side. -/
theorem firstByte (x y : Nibble) : (x.setWidth 8 <<< 4) ||| y.setWidth 8 = (x ++ y : BitVec 8) := by
  revert x y
  decide

theorem holds (i : Instr) : Statement i :=
  ⟨rfl, congrArg some (firstByte i.id i.complement)⟩

theorem lidarToggle (c : Nibble) (a b : Bits16) : Statement (.lidarToggle c a b) := holds _
theorem move (c : Nibble) (a b : Bits16) : Statement (.move c a b) := holds _
theorem rotate (c : Nibble) (a b : Bits16) : Statement (.rotate c a b) := holds _
theorem cancelMove (c : Nibble) (a b : Bits16) : Statement (.cancelMove c a b) := holds _
theorem motorValue (c : Nibble) (a b : Bits16) : Statement (.motorValue c a b) := holds _
theorem motorTime (c : Nibble) (a b : Bits16) : Statement (.motorTime c a b) := holds _
theorem pumps (c : Nibble) (a b : Bits16) : Statement (.pumps c a b) := holds _
theorem motors (c : Nibble) (a b : Bits16) : Statement (.motors c a b) := holds _
theorem motorsArg (c : Nibble) (a b : Bits16) : Statement (.motorsArg c a b) := holds _
theorem setVar (c : Nibble) (a b : Bits16) : Statement (.setVar c a b) := holds _
theorem getVar (c : Nibble) (a b : Bits16) : Statement (.getVar c a b) := holds _
theorem track (c : Nibble) (a b : Bits16) : Statement (.track c a b) := holds _
theorem reserved12 (c : Nibble) (a b : Bits16) : Statement (.reserved12 c a b) := holds _
theorem reserved13 (c : Nibble) (a b : Bits16) : Statement (.reserved13 c a b) := holds _
theorem reserved14 (c : Nibble) (a b : Bits16) : Statement (.reserved14 c a b) := holds _
theorem reserved15 (c : Nibble) (a b : Bits16) : Statement (.reserved15 c a b) := holds _

end Sys2Proof.Laws.FrameLayout
end

