-- ==== Sys2Proof/Laws/Run.lean ====
section
/-! SUPPORT. Runs of steps: one step at a time, one part after another, and what the Poller does alone. -/

namespace Sys2Proof.Machine

@[simp] theorem run_zero (s : State) : runSteps 0 s = .next s := rfl

/-- A run goes on from where its first step leads. -/
theorem run_succ {s t : State} (h : step s = .next t) (n : Nat) : runSteps (n + 1) s = runSteps n t := by
  simp only [runSteps, h]

/-- A run of one step is the step. -/
theorem run_one (s : State) : runSteps 1 s = step s := by
  simp only [runSteps]
  cases step s <;> rfl

/-- A run that goes on past its first step took that step. -/
theorem run_succ_next {s t : State} {n : Nat} (h : runSteps (n + 1) s = .next t) :
    ∃ u, step s = .next u ∧ runSteps n u = .next t := by
  simp only [runSteps] at h
  cases hs : step s with
  | next u => exact ⟨u, rfl, by simpa [hs] using h⟩
  | fault r => simp [hs] at h
  | refused r => simp [hs] at h

/-- Running this machine's steps is running the host's core. -/
theorem runSteps_eq_run (n : Nat) (s : State) : runSteps n s = Host.Core.run Sys2Proof.core n s := by
  induction n generalizing s with
  | zero => rfl
  | succ n ih =>
    have h : Sys2Proof.core.step s = step s := rfl
    simp only [runSteps, Host.Core.run, h]
    cases step s with
    | next t => exact ih t
    | fault r => rfl
    | refused r => rfl

/-- A run goes on from where its first part leads. -/
theorem run_add {s t : State} {m : Nat} (h : runSteps m s = .next t) (n : Nat) :
    runSteps (m + n) s = runSteps n t := by
  induction m generalizing s with
  | zero => cases h; rw [Nat.zero_add]
  | succ m ih =>
    obtain ⟨u, hs, hu⟩ := run_succ_next h
    rw [Nat.succ_add, run_succ hs, ih hu]

/-- The Poller's step of an unstopped block (R141). -/
theorem step_poll {s : State} (hf : s.fault = none) (hm : nextMove s = .poll) :
    step s = .next (advanceCursor (evaluate s.pollCursor (dropMove s))) := by
  simp [step, takeMove, hm, pollStep, hf]

theorem nextMove_of_onlyPolls {s : State} (h : OnlyPolls s) : nextMove s = .poll := by
  unfold nextMove
  split
  · rfl
  · next m rest hs => exact h m (by rw [hs]; exact List.mem_cons_self ..)

/-- What the Poller's step leaves, field by field (R144, R151). -/
theorem pollerStep_fields (s : State) :
    advanceCursor (evaluate s.pollCursor (dropMove s)) = { s with
      slot := s.slot.set s.pollCursor.toNat
        (afterEvaluation s.lidarStopped (readSlot s.pollCursor s)) s.pollCursor.isLt
      pollCursor := s.pollCursor + 1
      schedule := s.schedule.tail
      tx := s.tx ++ framesBytes (firing s.lidarStopped (readSlot s.pollCursor s)) } := by
  rw [evaluate_eq, readSlot_dropMove]
  rfl

/-- The slots after the Poller's step: the evaluated one as `afterEvaluation` says, the others as before. -/
theorem readSlot_pollerStep (j : Nibble) (s : State) :
    readSlot j (advanceCursor (evaluate s.pollCursor (dropMove s))) =
      if j = s.pollCursor then afterEvaluation s.lidarStopped (readSlot j s) else readSlot j s := by
  rw [pollerStep_fields]
  by_cases hj : j = s.pollCursor
  · subst hj
    simp [readSlot]
  · have hn : s.pollCursor.toNat ≠ j.toNat := fun e => hj (BitVec.eq_of_toNat_eq e.symm)
    simp [readSlot, hn, hj]

/-- An evaluation leaves a legal slot legal (R143, R148). -/
theorem legalSlot_afterEvaluation {i : Nibble} {k : Slot} (h : legalSlot i k = true) (l : Bool) :
    legalSlot i (afterEvaluation l k) = true := by
  cases k with
  | idle => exact h
  | fireNext _ => rfl
  | awaitLidarRun t =>
    cases l
    · rfl
    · exact h

end Sys2Proof.Machine
end

