-- ==== Sys2Proof/Laws/Slots.lean ====
section
/-! SUPPORT. What a handler and a step can do to a completion slot, to the cursor, and to the TERMINATEs sent. -/

namespace Sys2Proof.Machine

/-- Everything a handler can do to a slot: nothing, the retirement of cancel-move, or the installation of the slot's
own continuation (R113, R126, R142, R143). -/
theorem exec_slot {i : Instr} {s t : State} (h : exec i s = .next t) (j : Nibble) :
    readSlot j t = readSlot j s ∨
    (readSlot j t = .idle ∧ (j = 1 ∨ j = 2) ∧ ∃ c a b, i = .cancelMove c a b) ∨
    (readSlot j t = .awaitLidarRun j ∧ (j = 1 ∨ j = 2)) ∨
    (readSlot j t = .fireNext j ∧ (j = 4 ∨ j = 5 ∨ j = 7)) := by
  cases i with
  | move c a b =>
    cases h
    by_cases hj : j = 1
    · subst hj; exact .inr (.inr (.inl ⟨readSlot_install_same .., .inl rfl⟩))
    · exact .inl (readSlot_install_ne hj ..)
  | rotate c a b =>
    cases h
    by_cases hj : j = 2
    · subst hj; exact .inr (.inr (.inl ⟨readSlot_install_same .., .inr rfl⟩))
    · exact .inl (readSlot_install_ne hj ..)
  | cancelMove c a b =>
    cases h
    by_cases h2 : j = 2
    · subst h2; exact .inr (.inl ⟨readSlot_install_same .., .inr rfl, c, a, b, rfl⟩)
    · by_cases h1 : j = 1
      · subst h1
        exact .inr (.inl ⟨(readSlot_install_ne (by decide) ..).trans (readSlot_install_same ..), .inl rfl, c, a, b, rfl⟩)
      · exact .inl ((readSlot_install_ne h2 ..).trans (readSlot_install_ne h1 ..))
  | motorValue c a b =>
    cases h
    by_cases hj : j = 4
    · subst hj; exact .inr (.inr (.inr ⟨readSlot_install_same .., .inl rfl⟩))
    · exact .inl ((readSlot_install_ne hj ..).trans (readSlot_congr (by simp [burstIfTracking_eq]) j))
  | motorTime c a b =>
    cases h
    by_cases hj : j = 5
    · subst hj; exact .inr (.inr (.inr ⟨readSlot_install_same .., .inr (.inl rfl)⟩))
    · exact .inl (readSlot_install_ne hj ..)
  | motorsArg c a b =>
    by_cases h0 : s.pendCount = 0
    · rw [exec, execMotorsArg, if_pos h0] at h; cases h; exact .inl rfl
    · rw [exec, execMotorsArg, if_neg h0] at h; cases h
      rw [readSlot_installIfFilled]
      split
      case isTrue hj => rw [hj.1]; exact .inr (.inr (.inr ⟨rfl, .inr (.inr rfl)⟩))
      case isFalse => exact .inl rfl
  | _ => cases h; exact .inl rfl

/-- The TERMINATEs a handler can send: those of the immediate orders (R162). -/
theorem exec_sends {i : Instr} {s t : State} (h : exec i s = .next t) :
    ∃ fs, t.tx = s.tx ++ framesBytes fs ∧
      ∀ id, Feedback.term id ∈ fs → id ∈ ([0, 3, 6, 9, 10, 11] : List Nibble) := by
  cases i with
  | motorValue c a b =>
    cases h
    refine ⟨if s.tracking then trackingBurst else [], by simp [burstIfTracking_eq], fun id hid => ?_⟩
    split at hid <;> simp [trackingBurst] at hid
  | motorsArg c a b =>
    refine ⟨[], ?_, by simp⟩
    by_cases h0 : s.pendCount = 0
    · rw [exec, execMotorsArg, if_pos h0] at h; cases h; simp
    · rw [exec, execMotorsArg, if_neg h0] at h; cases h; simp
  | lidarToggle c a b => cases h; exact ⟨[.term 0], by simp, by simp⟩
  | cancelMove c a b => cases h; exact ⟨[.term 3], by simp [retire], by simp⟩
  | pumps c a b => cases h; exact ⟨[.term 6], by simp, by simp⟩
  | setVar c a b => cases h; exact ⟨[.term 9], by simp, by simp⟩
  | getVar c a b => cases h; exact ⟨[.var c (readVar c s), .term 10], by simp, by simp⟩
  | track c a b => cases h; exact ⟨[.term 11], by simp, by simp⟩
  | _ => cases h; exact ⟨[], by simp, by simp⟩

/-- Everything a byte's step can do to the slots, the cursor, the schedule, and the TERMINATEs sent. -/
theorem step_rx_slots {b : Byte} {s t : State} (h : step s = .next t) (hm : nextMove s = .rx b) :
    t.pollCursor = s.pollCursor ∧ t.schedule = s.schedule.tail ∧
    (∀ j, readSlot j t = readSlot j s ∨
      (readSlot j t = .idle ∧ (j = 1 ∨ j = 2) ∧ ∃ c a b, arrivingOrder s = some (.cancelMove c a b)) ∨
      (readSlot j t = .awaitLidarRun j ∧ (j = 1 ∨ j = 2)) ∨
      (readSlot j t = .fireNext j ∧ (j = 4 ∨ j = 5 ∨ j = 7))) ∧
    (t.lidarStopped ≠ s.lidarStopped → ∃ c a b, arrivingOrder s = some (.lidarToggle c a b) ∧
      t.lidarStopped = b2bool c) ∧
    ∃ fs, t.tx = s.tx ++ framesBytes fs ∧
      ∀ id, Feedback.term id ∈ fs → id ∈ ([0, 3, 6, 9, 10, 11] : List Nibble) := by
  rcases step_next h with ⟨h1, -⟩ | ⟨h1, -⟩ | ⟨b', -, -, ⟨-, rfl⟩ | ⟨-, -, rfl⟩ | ⟨-, -, f, ha, -, ht⟩⟩
  · rw [hm] at h1; cases h1
  · rw [hm] at h1; cases h1
  · exact ⟨rfl, rfl, fun j => .inl rfl, fun hne => absurd rfl hne, [], by simp, by simp⟩
  · exact ⟨rfl, rfl, fun j => .inl rfl, fun hne => absurd rfl hne, [], by simp, by simp⟩
  · rw [processFrame_eq] at ht
    obtain ⟨t', ht', -, -, -, e4, e5⟩ := exec_next (decodeFrame f)
      (emit (.ack (decodeFrame f).id) (resetPosition (storeByte b' (dropMove s))))
    rw [ht'] at ht
    cases ht
    refine ⟨e4, e5, fun j => ?_, fun hne => ?_, ?_⟩
    · rw [ha]
      simp only [Option.some.injEq]
      exact exec_slot ht' j
    · obtain ⟨c, a, d, hi⟩ := (exec_writes ht').2.1 hne
      rw [hi] at ht'
      cases ht'
      exact ⟨c, a, d, by rw [ha, hi], rfl⟩
    · obtain ⟨fs, e, he⟩ := exec_sends ht'
      refine ⟨.ack (decodeFrame f).id :: fs, by simp [e], fun id hid => ?_⟩
      rw [List.mem_cons] at hid
      rcases hid with hid | hid
      · cases hid
      · exact he id hid

/-- A Poller step's move is the Poller's. -/
theorem step_poll_next {s t : State} (h : step s = .next t) (hm : nextMove s = .poll) :
    t = advanceCursor (evaluate s.pollCursor (dropMove s)) := by
  rcases step_next h with ⟨h1, -⟩ | ⟨-, -, e⟩ | ⟨b, h1, -⟩
  · rw [hm] at h1; cases h1
  · exact e
  · rw [hm] at h1; cases h1

/-- Every slot holds a continuation of its own after a step if it did before (R126, R143). -/
theorem step_slotsLegal {s t : State} (h : step s = .next t) (hl : SlotsLegal s) : SlotsLegal t := by
  intro j
  cases hm : nextMove s with
  | reset =>
    rcases step_next h with ⟨-, rfl⟩ | ⟨h1, -⟩ | ⟨b, h1, -⟩
    · exact (by decide : SlotsLegal State.reset) j
    · rw [hm] at h1; cases h1
    · rw [hm] at h1; cases h1
  | poll =>
    rw [step_poll_next h hm, readSlot_pollerStep]
    split
    · exact legalSlot_afterEvaluation (hl j) _
    · exact hl j
  | rx b =>
    rcases (step_rx_slots h hm).2.2.1 j with e | ⟨e, -⟩ | ⟨e, hj⟩ | ⟨e, hj⟩
    · rw [e]; exact hl j
    · rw [e]; rfl
    · rw [e]; rcases hj with rfl | rfl <;> rfl
    · rw [e]; rcases hj with rfl | rfl | rfl <;> rfl

end Sys2Proof.Machine
end

