-- ==== Sys2Proof/Tests/Slice0.lean ====
section
/-! SUPPORT. Tests: written lines the well-formedness checks refuse, words written out from the encoding, one small
step per order with the result spec/95_test_vectors.md gives, and for each statement with hypotheses a witness. -/

namespace Sys2Proof.Tests

open Sys2Proof Sys2Proof.Machine

/-- S0 of spec/95: after reset and the noise. -/
def S0 : State := { State.reset with rxDiscard := 0 }

/-- The outcome's state, if it has one. -/
def stateOf : Host.Outcome State Fault Refusal → Option State
  | .next s => some s
  | .fault _ => none
  | .refused _ => none

/-- The state after the step that accepts the last byte of a frame. -/
def rxFrame (b0 b1 b2 b3 b4 : Byte) (s : State) : Option State :=
  stateOf (step (placeFrame ⟨b0, b1, b2, b3, b4⟩ s))

/-- REF of spec/00_scope.md: codes for examples only. -/
def ref : FeedbackCodes := { ack := 0, term := 1, var := 2, track := 3, trackNibble := 0 }

/-! ### Well-formedness: an ill-formed term for each check (R73, R74) -/

theorem test_wf_line : (AsmLine.mk .setVar [15, 65535, 65535]).wellFormed = true := by decide
theorem test_wf_too_many : (AsmLine.mk .move [0, 0, 0, 0]).countOk = false := by decide
theorem test_wf_complement : (AsmLine.mk .move [16]).complementOk = false := by decide
theorem test_wf_arg0 : (AsmLine.mk .move [0, 65536]).arg0Ok = false := by decide
theorem test_wf_arg1 : (AsmLine.mk .move [0, 0, 65536]).arg1Ok = false := by decide
theorem test_wf_line_refused :
    (AsmLine.mk .move [0, 0, 0, 0]).wellFormed = false ∧ (AsmLine.mk .move [16]).wellFormed = false ∧
    (AsmLine.mk .move [0, 65536]).wellFormed = false ∧ (AsmLine.mk .move [0, 0, 65536]).wellFormed = false := by
  decide
theorem test_wf_signed : PseudoOrder.signed16Ok 32768 = false ∧ PseudoOrder.signed16Ok (-32769) = false := by
  decide
theorem test_wf_index : PseudoOrder.indexOk 16 = false := by decide
theorem test_wf_pattern : PseudoOrder.patternOk (2 ^ 32) = false := by decide
theorem test_wf_pseudo :
    (PseudoOrder.moveT 32768).wellFormed = false ∧ (PseudoOrder.rotateT (-32769)).wellFormed = false ∧
    (PseudoOrder.setVarF 16 0).wellFormed = false ∧ (PseudoOrder.setVarF 0 (2 ^ 32)).wellFormed = false ∧
    (PseudoOrder.getVar 16).wellFormed = false := by decide

/-! ### Decoding: words written out from R60 and R66, one for every constructor -/

theorem test_decode_lidarToggle : decodeFrame ⟨0x05, 0, 0, 0, 0⟩ = .lidarToggle 5 0 0 := by decide  -- V12
theorem test_decode_move : decodeFrame ⟨0x17, 0xAB, 0xCD, 0xFF, 0xFF⟩ = .move 7 0xABCD 0xFFFF := by decide  -- V15
theorem test_decode_rotate : decodeFrame ⟨0x20, 0, 0, 0, 0x10⟩ = .rotate 0 0 0x10 := by decide  -- V16
theorem test_decode_cancelMove : decodeFrame ⟨0x30, 0, 0, 0, 0⟩ = .cancelMove 0 0 0 := by decide  -- V17
theorem test_decode_motorValue : decodeFrame ⟨0x4F, 0, 0, 0xFF, 0xFF⟩ = .motorValue 15 0 0xFFFF := by decide  -- V19
theorem test_decode_motorTime : decodeFrame ⟨0x53, 0, 0, 0x03, 0xE8⟩ = .motorTime 3 0 1000 := by decide  -- V20
theorem test_decode_pumps : decodeFrame ⟨0x60, 0, 0, 0, 0xB1⟩ = .pumps 0 0 0xB1 := by decide  -- V47
theorem test_decode_motors : decodeFrame ⟨0x7F, 0, 0, 0, 0⟩ = .motors 15 0 0 := by decide  -- V23
theorem test_decode_motorsArg : decodeFrame ⟨0x84, 0, 0, 0, 0⟩ = .motorsArg 4 0 0 := by decide  -- V24
theorem test_decode_setVar : decodeFrame ⟨0x90, 0xC0, 0x49, 0x0F, 0xDB⟩ = .setVar 0 0xC049 0x0FDB := by decide  -- V10
theorem test_decode_getVar : decodeFrame ⟨0xA7, 0, 0, 0, 0⟩ = .getVar 7 0 0 := by decide  -- V29
theorem test_decode_track : decodeFrame ⟨0xB1, 0, 0, 0, 0⟩ = .track 1 0 0 := by decide  -- V30
theorem test_decode_reserved12 :
    decodeFrame ⟨0xC5, 0x12, 0x34, 0x56, 0x78⟩ = .reserved12 5 0x1234 0x5678 := by decide  -- V32
theorem test_decode_reserved13 : decodeFrame ⟨0xD0, 0, 0, 0, 0⟩ = .reserved13 0 0 0 := by decide  -- V33
theorem test_decode_reserved14 : decodeFrame ⟨0xE0, 0, 0, 0, 0⟩ = .reserved14 0 0 0 := by decide  -- V34
theorem test_decode_reserved15 :
    decodeFrame ⟨0xFF, 0xFF, 0xFF, 0xFF, 0xFF⟩ = .reserved15 15 0xFFFF 0xFFFF := by decide  -- V7
theorem test_decode_float : (decodeOrder ⟨0x9A, 0x3F, 0x80, 0, 0⟩).floatBits = 0x3F800000 := by decide  -- V8
theorem test_decode_short : decode [0x60, 0, 0] = .error (.incompleteFrame 3) := by rfl  -- V2: no order yet
theorem test_table_word : decodeTableWord 40 0x9A3F800000 = some (.setVar 10 0x3F80 0) := by decide
theorem test_encode_setVar : encode (.setVar 3 0x4020 0) = [0x93, 0x40, 0x20, 0, 0] := by decide  -- P2
theorem test_asm_trailing : assemble ⟨.motors, [3]⟩ = some (.motors 3 0 0) := by decide  -- P3
theorem test_asm_moveT : (PseudoOrder.moveT 100).assemble = some (.move 0 0 0x64) := by decide  -- P1
theorem test_asm_rotateT : (PseudoOrder.rotateT (-100)).assemble = some (.rotate 0 0 0xFF9C) := by decide  -- R112

/-! ### Readings of registers -/

theorem test_asInt16 : asInt16 0x8000 = -32768 ∧ asInt16 0xFFFF = -1 ∧ asInt16 0x7FFF = 32767 := by decide  -- R111
theorem test_asF32_one : asF32 0x3F800000 = .finite false (2 ^ 23) (-23) := by decide  -- R13: 1.0
theorem test_asF32_nan : asF32 0x7FC00001 = .nan false 0x400001 := by decide  -- V28, G5

/-! ### The orders, one step each -/

theorem test_lidarToggle : (rxFrame 0x05 0 0 0 0 S0).map (·.lidarStopped) = some true := by decide  -- V12
theorem test_lidarToggle_tx :
    (rxFrame 0x01 0 0 0 0 S0).map (·.tx) = some (framesBytes [.ack 0, .term 0]) := by rfl  -- V11
theorem test_move : (rxFrame 0x17 0xAB 0xCD 0xFF 0xFF S0).map (fun t => (asInt16 t.tickTarget, t.slot[1])) =
    some (-1, .awaitLidarRun 1) := by decide  -- V15
theorem test_move_tx : (rxFrame 0x10 0 0 0x80 0 S0).map (·.tx) = some (framesBytes [.ack 1]) := by rfl  -- V14
theorem test_rotate : (rxFrame 0x20 0 0 0 0x10 S0).map (fun t => (t.tickTarget, t.slot[2], t.slot[1])) =
    some (0x10, .awaitLidarRun 2, .idle) := by decide  -- V16
theorem test_cancelMove :
    (rxFrame 0x30 0 0 0 0 { S0 with slot := S0.slot.set 1 (.awaitLidarRun 1), lidarStopped := true }).map
      (·.slot) = some (Vector.replicate 16 .idle) := by decide  -- R113, example
theorem test_motorValue : (rxFrame 0x42 0 0 0x01 0xF4 S0).map
    (fun t => (t.motorID, asInt16 t.motorValue, t.slot[4])) = some (2, 500, .fireNext 4) := by decide  -- V18
theorem test_motorValue_untracked_tx :
    (rxFrame 0x42 0 0 0x01 0xF4 S0).map (·.tx.length) = some 5 := by decide  -- V18
theorem test_motorTime : (rxFrame 0x53 0 0 0x03 0xE8 { S0 with tracking := true }).map
    (fun t => (t.motorID, t.motorTime, t.slot[5], t.tx.length)) = some (3, 1000, .fireNext 5, 5) := by decide  -- V20
theorem test_pumps : (rxFrame 0x60 0 0 0xFF 0xFF S0).map (·.pumpBitmask) = some 0xFFFF := by decide  -- V21
theorem test_pumps_tx :
    (rxFrame 0x60 0 0 0 0x05 S0).map (·.tx) = some (framesBytes [.ack 6, .term 6]) := by rfl  -- W3
theorem test_motors : (rxFrame 0x72 0 0 0 0
    { S0 with pendCount := 2, pendLen := 3, pendIDs := S0.pendIDs.set 2 (some 5) }).map
    (fun t => (t.pendCount, t.pendLen, t.pendIDs)) = some (2, 2, Vector.replicate 15 none) := by decide  -- V26
theorem test_motorsArg : (rxFrame 0x84 0 0 0 0 { S0 with pendCount := 1, pendLen := 1 }).map
    (fun t => (t.pendIDs[0], t.pendCount, t.slot[7])) = some (some 4, 0, .fireNext 7) := by decide  -- V24
theorem test_motorsArg_fault : (rxFrame 0x84 0 0 0 0 S0).map
    (fun t => (t.fault.map FaultCode.number, t.pendIDs == S0.pendIDs, t.slot == S0.slot)) =
    some (some 1, true, true) := by decide  -- V25
theorem test_setVar : (rxFrame 0x9F 0x80 0 0 0 S0).map (fun t => (t.vars[15], t.vars[14])) =
    some (0x80000000, 0x3F800000) := by decide  -- V27
theorem test_getVar_tx : (rxFrame 0xA7 0 0 0 0 S0).map (·.tx) =
    some (framesBytes [.ack 10, .var 7 0x3F800000, .term 10]) := by rfl  -- V29
theorem test_track : (rxFrame 0xB1 0 0 0 0 S0).map (·.tracking) = some true := by decide  -- V30
theorem test_reserved12_tx :
    (rxFrame 0xC5 0x12 0x34 0x56 0x78 S0).map (·.tx) = some (framesBytes [.ack 12]) := by rfl  -- V32
theorem test_reserved13_tx : (rxFrame 0xD0 0 0 0 0 S0).map (·.tx) = some (framesBytes [.ack 13]) := by rfl  -- V33
theorem test_reserved14_tx : (rxFrame 0xE0 0 0 0 0 S0).map (·.tx) = some (framesBytes [.ack 14]) := by rfl  -- V34
theorem test_reserved15_tx :
    (rxFrame 0xFF 0xFF 0xFF 0xFF 0xFF S0).map (·.tx) = some (framesBytes [.ack 15]) := by rfl  -- V35

/-! ### The agents -/

theorem test_noise : (stateOf (step { State.reset with schedule := [.rx 0x11] })).map
    (fun t => (t.rxDiscard, t.rxPos, t.tx)) = some (2, 0, []) := by decide  -- V1
theorem test_partial : (stateOf (step { S0 with rxPos := 2, schedule := [.rx 0x60] })).map
    (fun t => (t.rxPos, t.rxBuf[2], t.tx)) = some (3, some 0x60, []) := by decide  -- V2
theorem test_poll_fires : (stateOf (step { S0 with pollCursor := 4, slot := S0.slot.set 4 (.fireNext 4) })).map
    (fun t => (t.slot, t.pollCursor)) = some (Vector.replicate 16 .idle, 5) := by decide  -- V39
theorem test_poll_holds : (stateOf (step { S0 with
    pollCursor := 1, lidarStopped := true, slot := S0.slot.set 1 (.awaitLidarRun 1) })).map
    (fun t => (t.slot[1], t.tx)) = some (.awaitLidarRun 1, []) := by decide  -- V40
theorem test_poll_wraps : (stateOf (step { S0 with pollCursor := 15 })).map (·.pollCursor) = some 0 := by decide
theorem test_stopped : (match step { S0 with fault := some .motorsArgUnderflow, schedule := [.rx 0] } with
    | .fault r => r == .stopped .motorsArgUnderflow
    | _ => false) = true := by decide  -- V5
theorem test_reset_move :
    stateOf (step { S0 with fault := some .motorsArgUnderflow, pumpBitmask := 7, schedule := [.reset] }) =
      some State.reset := by decide  -- R54, R200

/-! ### Feedback bytes at REF (V42 to V46), and pseudo values -/

theorem test_ref_ack : (Feedback.ack 9).bytesWith ref = [0x09, 0, 0, 0, 0] := by decide
theorem test_ref_term : (Feedback.term 15).bytesWith ref = [0x1F, 0, 0, 0, 0] := by decide
theorem test_ref_var : (Feedback.var 3 0x40200000).bytesWith ref = [0x23, 0x40, 0x20, 0, 0] := by decide
theorem test_ref_trk : (Feedback.trk 0x3BA36E5B).bytesWith ref = [0x30, 0x3B, 0xA3, 0x6E, 0x5B] := by decide
theorem test_trackSample_zero : trackSample 0 = 0 := rfl
theorem test_read_var : readFeedback ref 0x23 0x40 0x20 0 0 = some (.var 3 0x40200000) := by decide

/-! ### Witnesses: for each statement with hypotheses, states and operands that meet all of them -/

/-- A stopped state, with a reset scheduled. -/
def stopped : State := { S0 with fault := some .motorsArgUnderflow, schedule := [.reset] }

/-- A state that holds a FireNext in slot 4, seen from cursor 5. -/
def firing4 : State := { S0 with pollCursor := 5, slot := S0.slot.set 4 (.fireNext 4), schedule := [.poll] }

/-- A state with a motion held, at its slot. -/
def held1 : State :=
  { S0 with pollCursor := 1, lidarStopped := true, slot := S0.slot.set 1 (.awaitLidarRun 1), schedule := [.poll] }

theorem test_witness_ResetMoveRestoresTheResetState : stopped.schedule = .reset :: [] := rfl

theorem test_witness_ExactlyTheCompleteFramesDecode :
    5 ≤ ([0x60, 0, 0, 0, 5] : List Byte).length ∧ ([0x60, 0, 0, 0] : List Byte).length < 5 := by decide

theorem test_witness_WellFormedLinesAssemble :
    (AsmLine.mk .setVar [15, 65535, 65535]).wellFormed = true ∧
      (AsmLine.mk .setVar [16, 65535, 65535]).wellFormed = false := by decide

theorem test_witness_PseudoOrdersExpandAsTabled :
    (-32768 : Int) ≤ -32768 ∧ (-32768 : Int) ≤ 32767 ∧ (32767 : Int) ≤ 32767 := by decide

theorem test_witness_MotorsArgFillsFromTheTopDown :
    ({ S0 with pendCount := 1 } : State).pendCount ≠ 0 ∧
      ({ S0 with pendCount := 15 } : State).pendCount ≠ 0 := by decide

theorem test_witness_MotorsArgUnderflowLatchesTheFault : S0.pendCount = 0 := by decide

theorem test_witness_GetVarSendsTheVariable : readVar 15 S0 = readVar 15 State.reset := rfl

theorem test_witness_ReservedOrdersDoNothing :
    12 ≤ (decodeFrame ⟨0xC0, 0, 0, 0, 0⟩).id.toNat ∧ 12 ≤ (decodeFrame ⟨0xFF, 0, 0, 0, 0⟩).id.toNat := by decide

theorem test_witness_IgnoredFieldsDoNotMatter :
    let i : Instr := .move 7 0xABCD 5
    let j : Instr := .move 0 0 5
    i.id = j.id ∧ (i.id ∉ ([1, 2, 3, 6, 12, 13, 14, 15] : List Nibble) → i.complement = j.complement) ∧
      (i.id = 9 → i.arg0 = j.arg0) ∧ (i.id ∈ ([1, 2, 4, 5, 6, 9] : List Nibble) → i.arg1 = j.arg1) := by decide

theorem test_witness_HandlersLeaveAssemblerAndCursor :
    ∃ i s t, exec i s = .next t := ⟨.pumps 0 0 5, S0, _, rfl⟩

theorem test_witness_StepRunsTheDecodedOrder :
    let f : Frame := ⟨0x60, 0, 0, 0, 5⟩
    let s := placeFrame f S0
    s.fault = none ∧ s.rxDiscard = 0 ∧ s.rxPos = 4 ∧ s.rxBuf[0] = some f.byte0 ∧ s.rxBuf[1] = some f.byte1 ∧
      s.rxBuf[2] = some f.byte2 ∧ s.rxBuf[3] = some f.byte3 ∧ s.schedule = .rx f.byte4 :: [] := by decide

theorem test_witness_PlacedWordRunsAtTheNextStep : State.reset.fault = none := rfl

theorem test_witness_ByteBeforeAFrameEndOnlyMovesTheAssembler :
    (let s : State := { State.reset with schedule := [.rx 0x11] }
     s.fault = none ∧ s.schedule = .rx 0x11 :: [] ∧ s.rxDiscard ≠ 0) ∧
    (let s : State := { S0 with rxPos := 3, schedule := [.rx 0x11] }
     s.fault = none ∧ s.schedule = .rx 0x11 :: [] ∧ s.rxDiscard = 0 ∧ s.rxPos ≠ 4) := by decide

theorem test_witness_FiveBytesAreOneFrameWhateverThePollerDoes :
    let f : Frame := ⟨0x60, 0, 0, 0, 5⟩
    let s : State := { S0 with schedule := [.rx f.byte0, .poll, .poll, .poll, .rx f.byte1, .rx f.byte2,
      .rx f.byte3, .rx f.byte4] }
    s.fault = none ∧ s.rxDiscard = 0 ∧ s.rxPos = 0 ∧
      s.schedule = List.replicate 0 .poll ++ .rx f.byte0 :: (List.replicate 3 .poll ++ .rx f.byte1 ::
        (List.replicate 0 .poll ++ .rx f.byte2 :: (List.replicate 0 .poll ++ .rx f.byte3 ::
          (List.replicate 0 .poll ++ [.rx f.byte4])))) := by decide

theorem test_witness_EvaluationRunsTheContinuation :
    readSlot 0 S0 = .idle ∧ (readSlot 1 held1 = .awaitLidarRun 1 ∧ held1.lidarStopped = true) ∧
    (readSlot 1 { held1 with lidarStopped := false } = .awaitLidarRun 1 ∧
      ({ held1 with lidarStopped := false } : State).lidarStopped = false) ∧
    readSlot 4 firing4 = .fireNext 4 := by decide

theorem test_witness_ContinuationFiresAtMostOnce : (evaluate 4 firing4).tx ≠ firing4.tx := by
  intro h
  have := congrArg List.length h
  cases this

theorem test_witness_PollerStepEvaluatesOneSlot :
    (S0.fault = none ∧ S0.schedule = []) ∧ (firing4.fault = none ∧ firing4.schedule.head? = some .poll) := by decide

theorem test_witness_LoopIterationEvaluatesAllSlotsInIdOrder :
    let s : State := { firing4 with pollCursor := 0 }
    s.fault = none ∧ OnlyPolls s ∧ s.pollCursor = 0 := by decide

/-- firing4 one Poller step away from its slot, with bytes of a frame offered between. -/
def busy4 : State := { firing4 with pollCursor := 3, schedule := [.rx 0x60, .poll, .rx 0, .poll] }

/-- held1 about to receive the last byte of a lidar-toggle that keeps the flag set. -/
def heldStop : State := placeFrame ⟨0x01, 0, 0, 0, 0⟩ { held1 with schedule := [] }

theorem test_witness_FireNextFiresAtItsSlotsNextTick :
    firing4.fault = none ∧ OnlyPolls firing4 ∧ readSlot 4 firing4 = .fireNext 4 ∧
      15 ≤ ((4 : Nibble) - firing4.pollCursor).toNat := by decide

theorem test_witness_FireNextFiresAtItsSlotsNextTick_step :
    (∃ t, SlotsLegal busy4 ∧ readSlot 4 busy4 = .fireNext 4 ∧ nextMove busy4 ≠ .reset ∧ step busy4 = .next t ∧
      ¬(nextMove busy4 = .poll ∧ busy4.pollCursor = 4)) ∧
    ∃ t, let s : State := { firing4 with pollCursor := 4 }
      SlotsLegal s ∧ readSlot 4 s = .fireNext 4 ∧ step s = .next t ∧ nextMove s = .poll ∧ s.pollCursor = 4 :=
  ⟨⟨_, by decide, by decide, by decide, rfl, by decide⟩, ⟨_, by decide, by decide, rfl, by decide, by decide⟩⟩

theorem test_witness_FireNextFiresAtItsSlotsNextTick_run :
    ∃ t, SlotsLegal busy4 ∧ readSlot 4 busy4 = .fireNext 4 ∧
      busy4.schedule = [.rx 0x60, .poll, .rx 0] ++ .poll :: [] ∧ Move.reset ∉ [Move.rx 0x60, .poll, .rx 0] ∧
      [Move.rx 0x60, .poll, .rx 0].count .poll = ((4 : Nibble) - busy4.pollCursor).toNat ∧
      runSteps ([Move.rx 0x60, .poll, .rx 0].length + 1) busy4 = .next t :=
  ⟨_, by decide, by decide, rfl, by decide, by decide, rfl⟩

theorem test_witness_StoppedLidarHoldsMotionForever :
    held1.fault = none ∧ OnlyPolls held1 ∧ SlotsLegal held1 ∧ held1.lidarStopped = true ∧
      readSlot 1 held1 = .awaitLidarRun 1 := by decide

theorem heldStop_leaves : LeavesMotionHeld heldStop := by
  have h : arrivingOrder heldStop = some (.lidarToggle 1 0 0) := by decide
  refine ⟨by decide, fun c a b e => ?_, fun c a b e => ?_⟩
  · rw [h] at e; cases e; decide
  · rw [h] at e; cases e

theorem test_witness_StoppedLidarHoldsMotionForever_step :
    ∃ t, SlotsLegal heldStop ∧ heldStop.lidarStopped = true ∧ readSlot 1 heldStop = .awaitLidarRun 1 ∧
      LeavesMotionHeld heldStop ∧ step heldStop = .next t :=
  ⟨_, by decide, by decide, by decide, heldStop_leaves, rfl⟩

theorem test_witness_StoppedLidarHoldsMotionForever_run :
    ∃ t, (∀ m, m < 1 → ∀ u, runSteps m heldStop = .next u → LeavesMotionHeld u) ∧
      runSteps 1 heldStop = .next t := by
  refine ⟨_, fun m hm u hu => ?_, rfl⟩
  obtain rfl : m = 0 := by omega
  cases hu
  exact heldStop_leaves

theorem test_ports_show_the_whole_list :
    (ports { S0 with pendIDs := S0.pendIDs.set 14 (some 9) }).pendIDs[14] = some 9 := by decide  -- R33

theorem test_witness_LidarRunReleasesAPendingMove :
    held1.fault = none ∧ held1.pollCursor = 1 ∧ OnlyPolls held1 ∧
      (∀ j, j ≠ 1 → readSlot j held1 = .idle) ∧ readSlot 1 held1 = .awaitLidarRun 1 := by decide

theorem test_witness_IdleSlotsStaySilent :
    S0.fault = none ∧ OnlyPolls S0 ∧ (∀ i, readSlot i S0 = .idle) := by decide

theorem test_witness_MotorsPhaseFillsInReverseThenFaults :
    ((1 : Nibble) ≠ 0 ∧ ([9] : List Nibble).length = (1 : Nibble).toNat) ∧
      ((15 : Nibble) ≠ 0 ∧ (List.replicate 15 (5 : Nibble)).length = (15 : Nibble).toNat) := by decide

theorem test_witness_VariableReadsBackWhatWasSet :
    (∀ i ∈ ([.pumps 0 0 5] : List Instr), ∀ x y, i ≠ .setVar 3 x y) ∧
    ∃ t u v, exec (.setVar 3 0x4020 0) S0 = .next t ∧ execAll [.pumps 0 0 5] t = .next u ∧
      exec (.getVar 3 0 0) u = .next v := by
  refine ⟨?_, _, _, _, rfl, rfl, rfl⟩
  intro i hi x y h
  rw [List.mem_singleton] at hi
  rw [hi] at h
  cases h

theorem test_witness_OnlySetVarWritesVariables :
    ∃ s t, step s = .next t ∧ nextMove s ≠ .reset ∧ readVar 3 t ≠ readVar 3 s :=
  ⟨placeFrame ⟨0x93, 0x40, 0x20, 0, 0⟩ S0, _, rfl, by decide, by decide⟩

theorem test_witness_OnlyTheirOrdersWriteTheFlags :
    (∃ s t, step s = .next t ∧ nextMove s ≠ .reset ∧ t.lidarStopped ≠ s.lidarStopped) ∧
    ∃ s t, step s = .next t ∧ nextMove s ≠ .reset ∧ t.tracking ≠ s.tracking :=
  ⟨⟨placeFrame ⟨0x01, 0, 0, 0, 0⟩ S0, _, rfl, by decide, by decide⟩,
    ⟨placeFrame ⟨0xB1, 0, 0, 0, 0⟩ S0, _, rfl, by decide, by decide⟩⟩

theorem test_witness_OnlyTheirOrdersWriteTheActuatorRegisters :
    (∃ s t, step s = .next t ∧ nextMove s ≠ .reset ∧ t.tickTarget ≠ s.tickTarget) ∧
    (∃ s t, step s = .next t ∧ nextMove s ≠ .reset ∧ t.motorID ≠ s.motorID ∧ t.motorValue ≠ s.motorValue) ∧
    (∃ s t, step s = .next t ∧ nextMove s ≠ .reset ∧ t.motorTime ≠ s.motorTime) ∧
    ∃ s t, step s = .next t ∧ nextMove s ≠ .reset ∧ t.pumpBitmask ≠ s.pumpBitmask :=
  ⟨⟨placeFrame ⟨0x10, 0, 0, 0, 1⟩ S0, _, rfl, by decide, by decide⟩,
    ⟨placeFrame ⟨0x42, 0, 0, 0, 1⟩ S0, _, rfl, by decide, by decide, by decide⟩,
    ⟨placeFrame ⟨0x52, 0, 0, 0, 1⟩ S0, _, rfl, by decide, by decide⟩,
    ⟨placeFrame ⟨0x60, 0, 0, 0, 1⟩ S0, _, rfl, by decide, by decide⟩⟩

theorem test_witness_OnlyMotorsOrdersWriteTheSelection :
    ∃ s t, step s = .next t ∧ nextMove s ≠ .reset ∧ t.pendCount ≠ s.pendCount ∧ t.pendLen ≠ s.pendLen :=
  ⟨placeFrame ⟨0x73, 0, 0, 0, 0⟩ S0, _, rfl, by decide, by decide, by decide⟩

theorem test_witness_OnlyHandlersAndThePollerWriteSlots :
    (∃ s t, step s = .next t ∧ nextMove s ≠ .reset ∧ readSlot 1 t ≠ readSlot 1 s) ∧
    ∃ s t, step s = .next t ∧ nextMove s ≠ .reset ∧ readSlot 4 t ≠ readSlot 4 s :=
  ⟨⟨placeFrame ⟨0x10, 0, 0, 0, 1⟩ S0, _, rfl, by decide, by decide⟩,
    ⟨{ firing4 with pollCursor := 4 }, _, rfl, by decide, by decide⟩⟩

theorem test_witness_StoppedBlockOnlyLeavesByReset :
    stopped.fault = some .motorsArgUnderflow ∧ nextMove { stopped with schedule := [] } ≠ .reset ∧
      ∃ t, runSteps 1 stopped = .next t ∧ t.fault = none :=
  ⟨rfl, by decide, _, rfl, rfl⟩

theorem test_witness_OnlyMotorsArgUnderflowFaults :
    ∃ s t, s.fault = none ∧ step s = .next t ∧ t.fault ≠ none :=
  ⟨placeFrame ⟨0x81, 0, 0, 0, 0⟩ S0, _, rfl, rfl, by decide⟩

theorem test_witness_StepKeepsTheInvariant : ∃ s t, Inv s ∧ step s = .next t := by
  refine ⟨firing4, _, ⟨by decide, by decide, by decide, ⟨by decide, fun k => ?_⟩, ⟨by decide, fun k v h => ?_⟩,
    ⟨[], rfl⟩, fun h => absurd rfl h⟩, rfl⟩
  · simp [firing4, S0, State.reset]
  · simp [firing4, S0, State.reset] at h

theorem test_witness_UnstoppedBlockAlwaysSteps :
    FrameHeld (placeFrame ⟨0x60, 0, 0, 0, 5⟩ S0) ∧ (placeFrame ⟨0x60, 0, 0, 0, 5⟩ S0).fault = none := by decide

theorem test_witness_StepsOnlyAppendWholeFrames : ∃ s t, step s = .next t ∧ nextMove s ≠ .reset :=
  ⟨firing4, _, rfl, by decide⟩

theorem test_witness_PositionCountsBytesModuloFive :
    (∃ s t, step s = .next t ∧ nextMove s = .rx 5 ∧ s.rxDiscard = 0 ∧ s.rxPos = 4) ∧
    (∃ s t, step s = .next t ∧ nextMove s = .rx 5 ∧ s.rxDiscard ≠ 0) ∧
    ∃ s t, step s = .next t ∧ nextMove s = .poll :=
  ⟨⟨placeFrame ⟨0x60, 0, 0, 0, 5⟩ S0, _, rfl, rfl, rfl, rfl⟩,
    ⟨{ State.reset with schedule := [.rx 5] }, _, rfl, rfl, by decide⟩, ⟨S0, _, rfl, rfl⟩⟩

end Sys2Proof.Tests
end

/-! ### The state: proofs of the statements on the Variable Store (spec/10_state.md) -/

namespace Sys2Proof.Machine

/-- R13, R200. -/
@[simp] theorem readVar_reset (i : Nibble) : readVar i State.reset = Config.varReset := by
  simp [readVar, State.reset]

/-- A read after a write sees the written entry alone (R13). -/
theorem readVar_writeVar (i j : Nibble) (p : Bits32) (s : State) :
    readVar i (writeVar j p s) = if i = j then p else readVar i s := by
  split
  case isTrue h => exact h ▸ readVar_writeVar_same i p s
  case isFalse h => exact readVar_writeVar_ne h p s

/-- Settles O1: every entry of the reset store is 1.0, and a write reaches its own entry alone. -/
theorem variableStoreResetsToOneAndHasNoAliases : Obligations.VariableStoreResetsToOneAndHasNoAliases :=
  ⟨readVar_reset, readVar_writeVar⟩

end Sys2Proof.Machine

/-! ### Memory: proofs of the statements on the argument bytes (spec/20_memory.md) -/

namespace Sys2Proof.Machine

/-- R42, R63: the two arguments side by side are the four argument bytes in arrival order. -/
theorem decodeFrame_arg0_append_arg1 (f : Frame) :
    (decodeFrame f).arg0 ++ (decodeFrame f).arg1 = f.byte1 ++ f.byte2 ++ f.byte3 ++ f.byte4 := by
  rw [decodeFrame_arg0, decodeFrame_arg1, decodeOrder_arg0, decodeOrder_arg1]
  exact (BitVec.append_assoc (x₁ := f.byte1 ++ f.byte2) (x₂ := f.byte3) (x₃ := f.byte4)).symm

/-- R42: the pattern of the decoded order is arg0 in its high half and arg1 in its low half. -/
theorem decodeOrder_floatBits_eq_append (f : Frame) :
    (decodeOrder f).floatBits = (decodeFrame f).arg0 ++ (decodeFrame f).arg1 :=
  (decodeOrder_floatBits f).trans (decodeFrame_arg0_append_arg1 f).symm

/-- R64, R93: the operand form the handlers use gives the pattern of the decoded order. -/
theorem floatBits_decodeFrame (f : Frame) :
    floatBits (decodeFrame f).arg0 (decodeFrame f).arg1 = (decodeOrder f).floatBits :=
  (floatBits_eq ..).trans (decodeOrder_floatBits_eq_append f).symm

/-- Settles O5: the float pattern is arg0 : arg1, the four argument bytes big-endian, and the handlers' operand
form agrees with it. -/
theorem decodedOrderHasTheFloatPattern : Obligations.DecodedOrderHasTheFloatPattern := fun f =>
  ⟨(decodeFrame_id f).symm, (decodeFrame_complement f).symm, (decodeFrame_arg0 f).symm, (decodeFrame_arg1 f).symm,
    decodeOrder_floatBits_eq_append f, decodeOrder_floatBits f, floatBits_decodeFrame f⟩

end Sys2Proof.Machine

/-! ### Encoding: proofs of the statements on the decoded fields and the reserved ids (spec/30_encoding.md) -/

namespace Sys2Proof.Machine

/-- R61: the id is the high nibble of byte 0. -/
theorem decodeFrame_id_toNat (f : Frame) : (decodeFrame f).id.toNat = f.byte0.toNat / 16 := by
  have hlt := f.byte0.isLt
  rw [decodeFrame_id, BitVec.extractLsb'_toNat, Nat.shiftRight_eq_div_pow]
  omega

/-- R62: the complement is the low nibble of byte 0. -/
theorem decodeFrame_complement_toNat (f : Frame) :
    (decodeFrame f).complement.toNat = f.byte0.toNat % 16 := by
  rw [decodeFrame_complement, BitVec.extractLsb'_toNat, Nat.shiftRight_zero]

/-- Two bytes side by side are a big-endian number, unsigned (R63). -/
theorem toNat_byte_append (hi lo : Byte) : (hi ++ lo).toNat = 256 * hi.toNat + lo.toNat := by
  rw [toNat_append_eq]
  omega

/-- R63: arg0 is bytes 1 and 2. -/
theorem decodeFrame_arg0_toNat (f : Frame) :
    (decodeFrame f).arg0.toNat = 256 * f.byte1.toNat + f.byte2.toNat := by
  rw [decodeFrame_arg0, decodeOrder_arg0]
  exact toNat_byte_append f.byte1 f.byte2

/-- R63: arg1 is bytes 3 and 4. -/
theorem decodeFrame_arg1_toNat (f : Frame) :
    (decodeFrame f).arg1.toNat = 256 * f.byte3.toNat + f.byte4.toNat := by
  rw [decodeFrame_arg1, decodeOrder_arg1]
  exact toNat_byte_append f.byte3 f.byte4

/-- Settles O4: the two nibbles of byte 0 and the two big-endian arguments, each as a number. -/
theorem decodeReadsTheFrameFields : Obligations.DecodeReadsTheFrameFields := fun f =>
  ⟨decodeFrame_id_toNat f, decodeFrame_complement_toNat f, decodeFrame_arg0_toNat f, decodeFrame_arg1_toNat f⟩

/-- One frame sent appends its bytes and does nothing else (R32, R160). -/
theorem emit_eq_framesBytes (fb : Feedback) (s : State) :
    emit fb s = { s with tx := s.tx ++ framesBytes [fb] } :=
  foldl_emit [fb] s

/-- R68, R122 to R125: an order with an id from 12 to 15 leaves the state as it is. -/
theorem exec_of_twelve_le_id {i : Instr} (h : 12 ≤ i.id.toNat) (s : State) : exec i s = .next s := by
  cases i with
  | reserved12 | reserved13 | reserved14 | reserved15 => rfl
  | _ => simp [Instr.id] at h

/-- R68, R92: all that the processing of a reserved frame does is to acknowledge it. -/
theorem processFrame_of_twelve_le_id {f : Frame} (h : 12 ≤ (decodeFrame f).id.toNat) (s : State) :
    processFrame f s = .next { s with tx := s.tx ++ framesBytes [.ack (decodeFrame f).id] } := by
  rw [processFrame_eq, exec_of_twelve_le_id h, emit_eq_framesBytes]

/-- Settles O24: the four reserved handlers answer the state they are given, and a reserved frame is only
acknowledged. -/
theorem reservedOrdersDoNothing : Obligations.ReservedOrdersDoNothing := fun _ _ _ s =>
  ⟨rfl, rfl, rfl, rfl, fun _ h => processFrame_of_twelve_le_id h s⟩

end Sys2Proof.Machine

/-! ### Orders: proofs of the statements on cancel-move, pumps and get-var (spec/41_orders.md) -/

namespace Sys2Proof.Machine

/-- R61, R62, R73: the first byte of an order's frame is its id and its complement side by side. -/
theorem encodeFrame_byte0 (i : Instr) : (encodeFrame i).byte0 = i.id ++ i.complement :=
  Laws.FrameLayout.firstByte i.id i.complement

/-- R73: the two bytes of an argument, put together again, are the argument. -/
theorem highByte_append_lowByte (v : Bits16) :
    ((v >>> 8).setWidth 8 : Byte) ++ ((v &&& 0xFF).setWidth 8 : Byte) = v := by
  have hlow : (v &&& 0xFF).toNat = v.toNat % 2 ^ 8 := Nat.and_two_pow_sub_one_eq_mod v.toNat 8
  have hhigh : (v >>> 8).toNat = v.toNat / 2 ^ 8 := Nat.shiftRight_eq_div_pow v.toNat 8
  apply BitVec.eq_of_toNat_eq
  rw [toNat_byte_append, BitVec.toNat_setWidth, BitVec.toNat_setWidth, hlow, hhigh]
  omega

/-- R73, R93: the decoder reads the frame of an order as that order. -/
theorem decodeFrame_encodeFrame (i : Instr) : decodeFrame (encodeFrame i) = i := by
  have hid : (decodeFrame (encodeFrame i)).id = i.id := by
    rw [decodeFrame_id, encodeFrame_byte0]
    exact BitVec.extractLsb'_append_eq_left
  have hcomplement : (decodeFrame (encodeFrame i)).complement = i.complement := by
    rw [decodeFrame_complement, encodeFrame_byte0]
    exact BitVec.extractLsb'_append_eq_right
  have harg0 : (decodeFrame (encodeFrame i)).arg0 = i.arg0 := by
    rw [decodeFrame_arg0, decodeOrder_arg0]
    exact highByte_append_lowByte i.arg0
  have harg1 : (decodeFrame (encodeFrame i)).arg1 = i.arg1 := by
    rw [decodeFrame_arg1, decodeOrder_arg1]
    exact highByte_append_lowByte i.arg1
  rw [← instrOf_fields (decodeFrame (encodeFrame i)), hid, hcomplement, harg0, harg1, instrOf_fields]

/-- R92, R95: processing the frame of an order acknowledges the order and runs its handler. -/
theorem processFrame_encodeFrame (i : Instr) (s : State) :
    processFrame (encodeFrame i) s = exec i (emit (.ack i.id) s) := by
  rw [processFrame_eq, decodeFrame_encodeFrame]

/-- R50, R160: frames sent after one frame follow it in the stream. -/
theorem emit_tx_append_framesBytes (f : Feedback) (fs : List Feedback) (s : State) :
    (emit f s).tx ++ framesBytes fs = s.tx ++ framesBytes (f :: fs) := by
  rw [emit_tx, List.append_assoc, framesBytes_cons]

/-! #### cancel-move -/

/-- R113: what cancel-move answers, the slots given by the two retirements. -/
theorem exec_cancelMove (c : Nibble) (a b : Bits16) (s : State) :
    exec (.cancelMove c a b) s =
      .next { s with slot := (retire 2 (retire 1 s)).slot, tx := s.tx ++ framesBytes [.term 3] } :=
  congrArg Host.Outcome.next (emit_eq_framesBytes (.term 3) (retire 2 (retire 1 s)))

/-- R113: the two retirements make slots 1 and 2 Idle and leave every other slot as it was. -/
theorem readSlot_retire_two_retire_one (j : Nibble) (s : State) :
    readSlot j (retire 2 (retire 1 s)) = if j = 1 ∨ j = 2 then .idle else readSlot j s := by
  by_cases h2 : j = 2
  · subst h2
    exact readSlot_install_same ..
  · have hskip : readSlot j (retire 2 (retire 1 s)) = readSlot j (retire 1 s) := readSlot_install_ne h2 ..
    rw [hskip]
    by_cases h1 : j = 1
    · subst h1
      exact readSlot_install_same ..
    · rw [if_neg (not_or.mpr ⟨h1, h2⟩)]
      exact readSlot_install_ne h1 ..

/-- R95, R113: what processing the frame of cancel-move answers. -/
theorem processFrame_cancelMove (c : Nibble) (a b : Bits16) (s : State) :
    processFrame (encodeFrame (.cancelMove c a b)) s =
      .next { s with slot := (retire 2 (retire 1 s)).slot, tx := s.tx ++ framesBytes [.ack 3, .term 3] } := by
  rw [processFrame_encodeFrame, exec_cancelMove, emit_tx_append_framesBytes]
  rfl

/-- Settles O14: the answer of the handler is the state with both retirements, and the ACK before it touches the
stream alone. -/
theorem cancelMoveRetiresBothMotions : Obligations.CancelMoveRetiresBothMotions := fun c a b s =>
  ⟨_, exec_cancelMove c a b s, readSlot_retire_two_retire_one 1 s, readSlot_retire_two_retire_one 2 s,
    fun j h1 h2 => (readSlot_retire_two_retire_one j s).trans (if_neg (not_or.mpr ⟨h1, h2⟩)),
    rfl, encodeFrame_byte0 _, processFrame_cancelMove c a b s⟩

/-! #### pumps -/

/-- R116: what pumps answers. -/
theorem exec_pumps (c : Nibble) (a b : Bits16) (s : State) :
    exec (.pumps c a b) s = .next { s with pumpBitmask := b, tx := s.tx ++ framesBytes [.term 6] } :=
  congrArg Host.Outcome.next (emit_eq_framesBytes (.term 6) (setPumps b s))

/-- R95, R116: what processing the frame of pumps answers. -/
theorem processFrame_pumps (c : Nibble) (a b : Bits16) (s : State) :
    processFrame (encodeFrame (.pumps c a b)) s =
      .next { s with pumpBitmask := b, tx := s.tx ++ framesBytes [.ack 6, .term 6] } := by
  rw [processFrame_encodeFrame, exec_pumps, emit_tx_append_framesBytes]
  rfl

/-- Settles O17: the handler stores its argument and terminates, and the ACK before it touches the stream alone. -/
theorem pumpsStoresTheBitmaskAndTerminates : Obligations.PumpsStoresTheBitmaskAndTerminates := fun c a b s =>
  ⟨exec_pumps c a b s, encodeFrame_byte0 _, processFrame_pumps c a b s⟩

/-! #### get-var -/

/-- R120: what get-var answers. -/
theorem exec_getVar (c : Nibble) (a b : Bits16) (s : State) :
    exec (.getVar c a b) s = .next { s with tx := s.tx ++ framesBytes [.var c (readVar c s), .term 10] } :=
  congrArg Host.Outcome.next (foldl_emit [.var c (readVar c s), .term 10] s)

/-- R13, R120: get-var sends a variable that holds its reset value as the pattern of 1.0. -/
theorem exec_getVar_of_reset {c : Nibble} {s : State} (h : readVar c s = readVar c State.reset) (a b : Bits16) :
    exec (.getVar c a b) s = .next { s with tx := s.tx ++ framesBytes [.var c 0x3F800000, .term 10] } := by
  rw [exec_getVar, h, readVar_reset, Config.varReset]

/-- R95, R120: what processing the frame of get-var answers. -/
theorem processFrame_getVar (c : Nibble) (a b : Bits16) (s : State) :
    processFrame (encodeFrame (.getVar c a b)) s =
      .next { s with tx := s.tx ++ framesBytes [.ack 10, .var c (readVar c s), .term 10] } := by
  rw [processFrame_encodeFrame, exec_getVar, emit_tx_append_framesBytes, readVar_congr (emit_vars _ s)]
  rfl

/-- Settles O22: the handler sends the variable it reads and terminates, and the ACK before it leaves the Variable
Store alone. -/
theorem getVarSendsTheVariable : Obligations.GetVarSendsTheVariable := fun c a b s =>
  ⟨exec_getVar c a b s, fun h => exec_getVar_of_reset h a b, encodeFrame_byte0 _, processFrame_getVar c a b s⟩

end Sys2Proof.Machine

/-! ### Completion: proofs of the statements on one evaluation of a slot (spec/42_completion.md) -/

namespace Sys2Proof.Machine

/-- R144, R148: a continuation that does not fire stays in its slot. -/
theorem afterEvaluation_of_firing_eq_nil {l : Bool} {k : Slot} (h : firing l k = []) : afterEvaluation l k = k := by
  cases k with
  | idle => rfl
  | awaitLidarRun target => cases l with
    | false => cases h
    | true => rfl
  | fireNext target => cases h

/-- R148: a continuation that fires leaves its slot Idle. -/
theorem afterEvaluation_of_firing_ne_nil {l : Bool} {k : Slot} (h : firing l k ≠ []) :
    afterEvaluation l k = .idle := by
  cases k with
  | idle => rfl
  | awaitLidarRun target => cases l with
    | false => rfl
    | true => exact absurd rfl h
  | fireNext target => rfl

/-- R148: what an evaluation leaves in a slot does not fire while the flag stands as it did. -/
theorem firing_afterEvaluation (l : Bool) (k : Slot) : firing l (afterEvaluation l k) = [] := by
  by_cases h : firing l k = []
  · rw [afterEvaluation_of_firing_eq_nil h, h]
  · rw [afterEvaluation_of_firing_ne_nil h, firing]

/-- R144: an evaluation does not write the flag it reads. -/
@[simp] theorem evaluate_lidarStopped (i : Nibble) (s : State) : (evaluate i s).lidarStopped = s.lidarStopped := by
  rw [evaluate_eq]

/-- R144: the evaluated slot reads as `afterEvaluation` says. -/
theorem readSlot_evaluate_same (i : Nibble) (s : State) :
    readSlot i (evaluate i s) = afterEvaluation s.lidarStopped (readSlot i s) :=
  (readSlot_congr (congrArg State.slot (evaluate_eq i s)) i).trans (readSlot_install_same i _ s)

/-- R144: an evaluation leaves the other slots as they were. -/
theorem readSlot_evaluate_ne {i j : Nibble} (h : j ≠ i) (s : State) : readSlot j (evaluate i s) = readSlot j s :=
  (readSlot_congr (congrArg State.slot (evaluate_eq i s)) j).trans (readSlot_install_ne h _ s)

/-- R144: the evaluation of a slot that does not fire changes nothing. -/
theorem evaluate_of_firing_eq_nil {i : Nibble} {s : State} (h : firing s.lidarStopped (readSlot i s) = []) :
    evaluate i s = s := by
  have hslot : s.slot.set i.toNat (readSlot i s) i.isLt = s.slot := Vector.set_getElem_self i.isLt
  rw [evaluate_eq, afterEvaluation_of_firing_eq_nil h, hslot, h, framesBytes_nil, List.append_nil]

/-- R145: the evaluation of an Idle slot changes nothing. -/
theorem evaluate_of_idle {i : Nibble} {s : State} (h : readSlot i s = .idle) : evaluate i s = s :=
  evaluate_of_firing_eq_nil (by rw [h, firing])

/-- R146: a pending motion is held while the lidar is stopped. -/
theorem evaluate_of_lidarStopped {i target : Nibble} {s : State} (h : readSlot i s = .awaitLidarRun target)
    (hl : s.lidarStopped = true) : evaluate i s = s :=
  evaluate_of_firing_eq_nil (by rw [h, hl]; rfl)

/-- R144, R148: a slot that fires is Idle after its evaluation. -/
theorem readSlot_evaluate_of_firing_ne_nil {i : Nibble} {s : State}
    (h : firing s.lidarStopped (readSlot i s) ≠ []) : readSlot i (evaluate i s) = .idle :=
  (readSlot_evaluate_same i s).trans (afterEvaluation_of_firing_ne_nil h)

/-- R144, R160: an evaluation writes the slots and appends what its slot fires, and does nothing else. -/
theorem evaluate_eq_slot_tx (i : Nibble) (s : State) :
    evaluate i s = { s with
      slot := (evaluate i s).slot
      tx := s.tx ++ framesBytes (firing s.lidarStopped (readSlot i s)) } := by
  rw [evaluate_eq]

/-- R146, R147: an AwaitLidarRun slot fires while the flag is false, a FireNext slot always. -/
theorem firing_eq_term {l : Bool} {k : Slot} {target : Nibble}
    (h : (k = .awaitLidarRun target ∧ l = false) ∨ k = .fireNext target) : firing l k = [.term target] := by
  obtain ⟨rfl, rfl⟩ | rfl := h <;> rfl

/-- R148: the evaluation of a slot just evaluated changes nothing. -/
theorem evaluate_evaluate (i : Nibble) (s : State) : evaluate i (evaluate i s) = evaluate i s :=
  evaluate_of_firing_eq_nil (by
    rw [evaluate_lidarStopped, readSlot_evaluate_same, firing_afterEvaluation])

/-- Settles O34: a slot that sends fires and so is Idle, what an evaluation leaves does not fire again, and the slots
cancel-move retired are Idle. -/
theorem continuationFiresAtMostOnce : Obligations.ContinuationFiresAtMostOnce := by
  refine ⟨fun i s hsent => ?_, evaluate_evaluate, fun c a b s => ⟨_, exec_cancelMove c a b s, ?_, ?_⟩⟩
  · exact readSlot_evaluate_of_firing_ne_nil fun hnil =>
      hsent (congrArg State.tx (evaluate_of_firing_eq_nil hnil))
  · exact evaluate_of_idle (readSlot_retire_two_retire_one 1 s)
  · exact evaluate_of_idle (readSlot_retire_two_retire_one 2 s)

/-- Settles O33: a slot that does not fire is left alone, and one that fires sends its TERMINATE and is retired. -/
theorem evaluationRunsTheContinuation : Obligations.EvaluationRunsTheContinuation := by
  refine fun i s => ⟨evaluate_of_idle, fun target => evaluate_of_lidarStopped, fun target hfires => ?_⟩
  have hterm : firing s.lidarStopped (readSlot i s) = [.term target] := firing_eq_term hfires
  refine ⟨readSlot_evaluate_of_firing_ne_nil ?_, fun j hj => readSlot_evaluate_ne hj s, ?_⟩
  · rw [hterm]
    exact List.cons_ne_nil _ _
  · rw [← hterm]
    exact evaluate_eq_slot_tx i s

end Sys2Proof.Machine

/-! ### Encoding: proofs of the statements on whole frames, table words and assembler lines (spec/30_encoding.md) -/

namespace Sys2Proof.Machine

/-- R61, R62: the two nibbles of a byte, put together again, are the byte. -/
theorem highNibble_append_lowNibble (v : Byte) : v.extractLsb' 4 4 ++ v.extractLsb' 0 4 = v := by
  have hv := v.isLt
  apply BitVec.eq_of_toNat_eq
  rw [toNat_append_eq, BitVec.extractLsb'_toNat, BitVec.extractLsb'_toNat, Nat.shiftRight_eq_div_pow,
    Nat.shiftRight_zero]
  omega

/-- R73: the high byte of two bytes side by side is the first. -/
theorem highByte_of_append (hi lo : Byte) : ((hi ++ lo) >>> 8).setWidth 8 = hi := by
  have hlo := lo.isLt
  have hhi := hi.isLt
  apply BitVec.eq_of_toNat_eq
  rw [BitVec.toNat_setWidth, BitVec.toNat_ushiftRight, toNat_byte_append, Nat.shiftRight_eq_div_pow]
  omega

/-- R73: the low byte of two bytes side by side is the second. -/
theorem lowByte_of_append (hi lo : Byte) : ((hi ++ lo : Bits16) &&& 0xFF).setWidth 8 = lo := by
  have hlo := lo.isLt
  have hmask : ((hi ++ lo : Bits16) &&& 0xFF).toNat = (hi ++ lo).toNat % 2 ^ 8 :=
    Nat.and_two_pow_sub_one_eq_mod _ 8
  apply BitVec.eq_of_toNat_eq
  rw [BitVec.toNat_setWidth, hmask, toNat_byte_append]
  omega

/-- R73, R93: every frame is the encoding of the order it decodes to. -/
theorem encodeFrame_decodeFrame (f : Frame) : encodeFrame (decodeFrame f) = f := by
  have h0 : (encodeFrame (decodeFrame f)).byte0 = f.byte0 := by
    rw [encodeFrame_byte0, decodeFrame_id, decodeFrame_complement, highNibble_append_lowNibble]
  have harg0 : (decodeFrame f).arg0 = f.byte1 ++ f.byte2 := by rw [decodeFrame_arg0, decodeOrder_arg0]
  have harg1 : (decodeFrame f).arg1 = f.byte3 ++ f.byte4 := by rw [decodeFrame_arg1, decodeOrder_arg1]
  rw [encodeFrame, encodeFields, Frame.mk.injEq, harg0, harg1]
  exact ⟨h0, highByte_of_append .., lowByte_of_append .., highByte_of_append .., lowByte_of_append ..⟩

/-- R69, R94: the bytes of a frame decode to its order, and what follows them is left. -/
theorem decode_frameBytes_append (f : Frame) (rest : List Byte) :
    decode (f.bytes ++ rest) = .ok (decodeFrame f, rest) := rfl

/-- Settles O6: the round trip of orders is that of their frames, and so is the round trip of frames. -/
theorem decodeAndEncodeAgree : Obligations.DecodeAndEncodeAgree := by
  refine ⟨fun i rest => ?_, encodeFrame_decodeFrame⟩
  rw [encode, decode_frameBytes_append, decodeFrame_encodeFrame]

/-- R69: a sequence of at least five bytes is a frame's bytes and what follows. -/
theorem exists_frame_of_five_le {bs : List Byte} (h : 5 ≤ bs.length) :
    ∃ f : Frame, bs = f.bytes ++ bs.drop 5 := by
  match bs, h with
  | b0 :: b1 :: b2 :: b3 :: b4 :: _, _ => exact ⟨⟨b0, b1, b2, b3, b4⟩, rfl⟩

/-- R69: fewer than five bytes are no order yet. -/
theorem decode_of_length_lt_five {bs : List Byte} (h : bs.length < 5) :
    decode bs = .error (.incompleteFrame bs.length) := by
  match bs, h with
  | [], _ | [_], _ | [_, _], _ | [_, _, _], _ | [_, _, _, _], _ => rfl

/-- Settles O7: five bytes at the front are some frame, and every frame decodes and encodes back. -/
theorem exactlyTheCompleteFramesDecode : Obligations.ExactlyTheCompleteFramesDecode := by
  refine fun bs => ⟨fun h => ?_, decode_of_length_lt_five⟩
  obtain ⟨f, hf⟩ := exists_frame_of_five_le h
  refine ⟨decodeFrame f, ?_, ?_⟩
  · conv_lhs => rw [hf, decode_frameBytes_append]
  · rw [encode, encodeFrame_decodeFrame, hf]
    rfl

/-! #### Opcode-table words -/

/-- R60: the frame word as a number, byte 0 most significant. -/
theorem toNat_word (f : Frame) : f.word.toNat = 2 ^ 32 * f.byte0.toNat + 2 ^ 24 * f.byte1.toNat +
    2 ^ 16 * f.byte2.toNat + 2 ^ 8 * f.byte3.toNat + f.byte4.toNat := by
  simp only [Frame.word, toNat_append_eq]
  ring

/-- R60: the bytes of a frame word are those of its frame. -/
theorem frameOfWord_word (f : Frame) : frameOfWord f.word = f := by
  have h0 := f.byte0.isLt
  have h1 := f.byte1.isLt
  have h2 := f.byte2.isLt
  have h3 := f.byte3.isLt
  have h4 := f.byte4.isLt
  rw [frameOfWord, Frame.mk.injEq]
  refine ⟨?_, ?_, ?_, ?_, ?_⟩ <;>
    (apply BitVec.eq_of_toNat_eq
     rw [BitVec.extractLsb'_toNat, toNat_word, Nat.shiftRight_eq_div_pow]
     omega)

/-- R60, R66: a frame word read as a word of the opcode table is its frame. -/
theorem frameOfTableWord_word (f : Frame) : frameOfTableWord 40 f.word.toNat = f := by
  rw [frameOfTableWord, Nat.mod_eq_of_lt f.word.isLt, BitVec.ofNat_toNat, BitVec.setWidth_eq, frameOfWord_word]

/-- R66, R94: a frame word of the opcode table decodes to the order of its frame. -/
theorem decodeTableWord_word (f : Frame) : decodeTableWord 40 f.word.toNat = some (decodeFrame f) := by
  rw [decodeTableWord, if_neg (by decide), frameOfTableWord_word]
  rfl

/-- R60, R61: bits 39 to 36 of a frame word are the order's id. -/
theorem word_div_eq_id (f : Frame) : f.word.toNat / 2 ^ 36 = (decodeFrame f).id.toNat := by
  have h1 := f.byte1.isLt
  have h2 := f.byte2.isLt
  have h3 := f.byte3.isLt
  have h4 := f.byte4.isLt
  rw [toNat_word, decodeFrame_id_toNat]
  omega

/-- Settles O8: the word of an order's frame is read as that frame, which decodes back to the order. -/
theorem tableWordsDecodeToTheirOrder : Obligations.TableWordsDecodeToTheirOrder := fun i =>
  ⟨(decodeTableWord_word _).trans (congrArg some (decodeFrame_encodeFrame i)),
    (word_div_eq_id _).trans (by rw [decodeFrame_encodeFrame])⟩

/-- Settles O9, by running the decoder on the six frames. -/
theorem sampleFramesDecode : Obligations.SampleFramesDecode := by
  unfold Obligations.SampleFramesDecode
  decide

/-! #### Assembler lines -/

/-- R73: each operand of a well-formed line fits its field. -/
theorem operands_lt_of_wellFormed {l : AsmLine} (h : l.wellFormed = true) :
    l.operands.getD 0 0 < 2 ^ 4 ∧ l.operands.getD 1 0 < 2 ^ 16 ∧ l.operands.getD 2 0 < 2 ^ 16 := by
  simp only [AsmLine.wellFormed, Bool.and_eq_true, AsmLine.complementOk, AsmLine.arg0Ok, AsmLine.arg1Ok,
    decide_eq_true_eq] at h
  obtain ⟨⟨⟨-, hcomplement⟩, harg0⟩, harg1⟩ := h
  exact ⟨hcomplement, harg0, harg1⟩

/-- Settles O10: the order a well-formed line assembles to has the line's operands, none of which is cut. -/
theorem wellFormedLinesAssemble : Obligations.WellFormedLinesAssemble := by
  refine fun l => ⟨fun h => ?_, fun h => if_neg (by simp [h])⟩
  obtain ⟨hcomplement, harg0, harg1⟩ := operands_lt_of_wellFormed h
  refine ⟨_, if_pos h, instrOf_id .., ?_, ?_, ?_⟩
  · rw [instrOf_complement, BitVec.toNat_ofNat, Nat.mod_eq_of_lt hcomplement]
  · rw [instrOf_arg0, BitVec.toNat_ofNat, Nat.mod_eq_of_lt harg0]
  · rw [instrOf_arg1, BitVec.toNat_ofNat, Nat.mod_eq_of_lt harg1]

/-- The spec's two's-complement reading is the library's. -/
theorem asInt16_eq_toInt (v : Bits16) : asInt16 v = v.toInt := by
  rw [asInt16, BitVec.toInt_eq_toNat_cond]
  split <;> split <;> omega

/-- R74: the pattern of a signed 16-bit operand reads as that operand. -/
theorem asInt16_ofInt {t : Int} (hlo : -32768 ≤ t) (hhi : t ≤ 32767) : asInt16 (BitVec.ofInt 16 t) = t := by
  rw [asInt16_eq_toInt, BitVec.toInt_ofInt, Int.bmod_eq_of_le (by omega) (by omega)]

/-- R74: a signed operand in its range makes a well-formed pseudo-order. -/
theorem signed16Ok_of_range {t : Int} (hlo : -32768 ≤ t) (hhi : t ≤ 32767) :
    PseudoOrder.signed16Ok t = true := by
  rw [PseudoOrder.signed16Ok, Bool.and_eq_true, decide_eq_true_eq, decide_eq_true_eq]
  omega

/-- R73: a line whose operands are the numbers of a complement and two arguments assembles to its mnemonic's order
with them. -/
theorem assemble_toNat (m : Mnemonic) (c : Nibble) (a b : Bits16) :
    assemble ⟨m, [c.toNat, a.toNat, b.toNat]⟩ = some (instrOf m.id c a b) := by
  have hc := c.isLt
  have ha := a.isLt
  have hb := b.isLt
  rw [assemble, if_pos (by
    simp [AsmLine.wellFormed, AsmLine.countOk, AsmLine.complementOk, AsmLine.arg0Ok, AsmLine.arg1Ok]; omega)]
  simp

/-- R74: the two halves of a pattern, as set-var.f writes them, are arguments whose numbers they are. -/
theorem exists_halves (p : Bits32) :
    ∃ a b : Bits16, a.toNat = p.toNat / 2 ^ 16 ∧ b.toNat = p.toNat % 2 ^ 16 ∧ a ++ b = p := by
  have hp := p.isLt
  refine ⟨BitVec.ofNat 16 (p.toNat / 2 ^ 16), BitVec.ofNat 16 p.toNat, ?_, BitVec.toNat_ofNat .., ?_⟩
  · rw [BitVec.toNat_ofNat]
    omega
  · apply BitVec.eq_of_toNat_eq
    rw [toNat_append_eq, BitVec.toNat_ofNat, BitVec.toNat_ofNat]
    omega

/-- Settles O11: each pseudo-order expands to a line of numbers that fit, the signed ones by their pattern. -/
theorem pseudoOrdersExpandAsTabled : Obligations.PseudoOrdersExpandAsTabled := by
  refine ⟨by decide, by decide, by decide, by decide, fun t hlo hhi => ?_, fun c p => ?_⟩
  · have hwf := signed16Ok_of_range hlo hhi
    refine ⟨BitVec.ofInt 16 t, (if_pos hwf).trans ?_, (if_pos hwf).trans ?_, asInt16_ofInt hlo hhi⟩
    · exact assemble_toNat .move 0 0 (BitVec.ofInt 16 t)
    · exact assemble_toNat .rotate 0 0 (BitVec.ofInt 16 t)
  · obtain ⟨a, b, ha, hb, hab⟩ := exists_halves p
    have hindex : PseudoOrder.indexOk c.toNat = true := decide_eq_true c.isLt
    have hpattern : PseudoOrder.patternOk p.toNat = true := decide_eq_true p.isLt
    refine ⟨a, b, (if_pos ?_).trans ?_, hab, (if_pos hindex).trans (assemble_toNat .getVar c 0 0)⟩
    · rw [PseudoOrder.wellFormed, hindex, hpattern, Bool.and_self]
    · rw [PseudoOrder.expand, ← ha, ← hb]
      exact assemble_toNat .setVar c a b

end Sys2Proof.Machine

/-! ### Orders: proofs of the statements on the other handlers (spec/41_orders.md) -/

namespace Sys2Proof.Machine

/-- Settles O12: the flag is set from the complement and the TERMINATE follows. -/
theorem lidarToggleSetsItsFlagAndTerminates : Obligations.LidarToggleSetsItsFlagAndTerminates := by
  intro c a b s
  rw [← b2bool_eq]
  exact congrArg Host.Outcome.next (emit_eq_framesBytes (.term 0) (setLidarStopped c s))

/-- Settles O23: the flag is set from the complement and the TERMINATE follows. -/
theorem trackSetsItsFlagAndTerminates : Obligations.TrackSetsItsFlagAndTerminates := by
  intro c a b s
  rw [← b2bool_eq]
  exact congrArg Host.Outcome.next (emit_eq_framesBytes (.term 11) (setTracking c s))

/-- Settles O13: each order captures its target and installs in its own slot. -/
theorem moveAndRotateCaptureAndInstall : Obligations.MoveAndRotateCaptureAndInstall := fun _ _ _ _ =>
  ⟨⟨_, rfl, rfl, readSlot_install_same .., fun _ hj => readSlot_install_ne hj .., rfl⟩,
    ⟨_, rfl, rfl, readSlot_install_same .., fun _ hj => readSlot_install_ne hj .., rfl⟩⟩

/-- Settles O16: motor-time captures its operands and installs in slot 5. -/
theorem motorTimeCapturesAndInstalls : Obligations.MotorTimeCapturesAndInstalls := fun _ _ _ _ =>
  ⟨_, rfl, readSlot_install_same .., fun _ hj => readSlot_install_ne hj .., rfl⟩

/-- R114: what motor-value answers, the slots given by the install. -/
theorem exec_motorValue (c : Nibble) (a b : Bits16) (s : State) :
    exec (.motorValue c a b) s = .next (install 4 (.fireNext 4) { s with
      motorID := c.setWidth 8
      motorValue := b
      tx := s.tx ++ framesBytes (if s.tracking then trackingBurst else []) }) :=
  congrArg (fun t => Host.Outcome.next (install 4 (.fireNext 4) (captureValue (c.setWidth 8) b t)))
    (burstIfTracking_eq s)

/-- Settles O15: the burst, if any, goes out first, then motor-value captures its operands and installs in slot 4. -/
theorem motorValueStreamsCapturesAndInstalls : Obligations.MotorValueStreamsCapturesAndInstalls := fun c a b s =>
  ⟨_, exec_motorValue c a b s, readSlot_install_same .., fun _ hj => readSlot_install_ne hj .., rfl⟩

/-- Settles O18: motors loads the count and the length and releases every entry. -/
theorem motorsOpensASelection : Obligations.MotorsOpensASelection := fun c _ _ s =>
  ⟨openSelection c s, rfl, fun k => Vector.getElem_replicate k.isLt, rfl⟩

/-- R119: what set-var answers. -/
theorem exec_setVar (c : Nibble) (a b : Bits16) (s : State) :
    exec (.setVar c a b) s =
      .next { s with vars := (writeVar c (a ++ b) s).vars, tx := s.tx ++ framesBytes [.term 9] } := by
  rw [← floatBits_eq]
  exact congrArg Host.Outcome.next (emit_eq_framesBytes (.term 9) (writeVar c (floatBits a b) s))

/-- Settles O21: the store is written at the named variable alone, and the TERMINATE follows. -/
theorem setVarStoresThePattern : Obligations.SetVarStoresThePattern := fun c a b s =>
  ⟨_, exec_setVar c a b s, readVar_writeVar_same .., fun _ hj => readVar_writeVar_ne hj .., rfl⟩

/-- R142: the second of two installs in a slot overwrites the first. -/
theorem install_install (i : Nibble) (k k' : Slot) (s : State) : install i k' (install i k s) = install i k' s := by
  simp [install]

/-- Two orders one after the other: the second runs where the first leads. -/
theorem execAll_pair {i : Instr} {s t : State} (h : exec i s = .next t) (j : Instr) :
    execAll [i, j] s = exec j t := by
  simp only [execAll, h]
  cases exec j t <;> rfl

/-- Settles O41: the second order captures and installs over what the first one wrote. -/
theorem reinstalledContinuationReplacesTheFirst : Obligations.ReinstalledContinuationReplacesTheFirst :=
  fun _ _ _ _ _ b' s =>
  ⟨(execAll_pair rfl _).trans (congrArg Host.Outcome.next (install_install 1 _ _ (captureTarget b' s))),
    (execAll_pair rfl _).trans (congrArg Host.Outcome.next (install_install 2 _ _ (captureTarget b' s))),
    (execAll_pair rfl _).trans (congrArg Host.Outcome.next (install_install 5 _ _ (captureTime _ b' s)))⟩

/-! #### motors-arg -/

/-- R118: with a count left motors-arg fills the list. -/
theorem exec_motorsArg {s : State} (h : s.pendCount ≠ 0) (c : Nibble) (a b : Bits16) :
    exec (.motorsArg c a b) s = .next (installIfFilled (fillPending (c.setWidth 8) s)) :=
  if_neg h

/-- R118, R182: with no count left motors-arg takes the fault. -/
theorem exec_motorsArg_underflow {s : State} (h : s.pendCount = 0) (c : Nibble) (a b : Bits16) :
    exec (.motorsArg c a b) s = .next { s with fault := some .motorsArgUnderflow } :=
  if_pos h

/-- R118: the count reaches 0 when it was 1. -/
theorem fillPending_pendCount_eq_zero (v : Byte) (s : State) :
    (fillPending v s).pendCount = 0 ↔ s.pendCount = 1 := by
  rw [fillPending_pendCount]
  generalize s.pendCount = n
  revert n
  decide

/-- R118: after a fill slot 7 holds the MOTORS continuation if the count was 1, and the slots are else as before. -/
theorem readSlot_installIfFilled_fillPending (j : Nibble) (v : Byte) (s : State) :
    readSlot j (installIfFilled (fillPending v s)) =
      if j = 7 ∧ s.pendCount = 1 then .fireNext 7 else readSlot j s := by
  simp only [readSlot_installIfFilled, fillPending_pendCount_eq_zero]
  rfl

/-- R118: the install writes the slots alone. -/
theorem installIfFilled_eq_slot (s : State) : installIfFilled s = { s with slot := (installIfFilled s).slot } := by
  unfold installIfFilled
  split <;> rfl

/-- Settles O19: the fill writes its entry and the count, and the install follows when the count reaches 0. -/
theorem motorsArgFillsFromTheTopDown : Obligations.MotorsArgFillsFromTheTopDown := by
  intro c a b s h
  refine ⟨_, exec_motorsArg h c a b, ?_, fun k => ?_, fun j => readSlot_installIfFilled_fillPending j _ s, ?_⟩
  · rw [installIfFilled_pendCount]
    exact fillPending_count h _
  · rw [installIfFilled_pendIDs]
    exact fillPending_entry h _ k k.isLt
  · rw [installIfFilled_eq_slot]
    rfl

/-- Settles O20: the latch is all that the fault writes, and there is one code. -/
theorem motorsArgUnderflowLatchesTheFault : Obligations.MotorsArgUnderflowLatchesTheFault := fun c a b _ h =>
  ⟨exec_motorsArg_underflow h c a b, rfl, fun .motorsArgUnderflow => rfl⟩

/-! #### All orders -/

/-- R166: every handler completes and appends its feedback. -/
theorem exec_handlerFeedback (i : Instr) (s : State) :
    ∃ t, exec i s = .next t ∧ t.tx = s.tx ++ framesBytes (handlerFeedback i s) := by
  cases i with
  | motorValue c a b => exact ⟨_, exec_motorValue c a b s, rfl⟩
  | motorsArg c a b =>
    by_cases h : s.pendCount = 0
    · exact ⟨_, exec_motorsArg_underflow h c a b, (List.append_nil _).symm⟩
    · exact ⟨_, exec_motorsArg h c a b, by simp [handlerFeedback]⟩
  | getVar c a b => exact ⟨_, exec_getVar c a b s, rfl⟩
  | cancelMove c a b => exact ⟨_, exec_cancelMove c a b s, rfl⟩
  | _ => exact ⟨_, rfl, by simp [handlerFeedback]⟩

/-- Settles O26, handler by handler. -/
theorem everyOrderSendsItsFeedback : Obligations.EveryOrderSendsItsFeedback := exec_handlerFeedback

/-- R97: what a handler leaves of the assembler, the cursor and the schedule. -/
theorem exec_keeps_assembler {i : Instr} {s t : State} (h : exec i s = .next t) :
    t.rxPos = s.rxPos ∧ t.rxBuf = s.rxBuf ∧ t.rxDiscard = s.rxDiscard ∧ t.pollCursor = s.pollCursor ∧
      t.schedule = s.schedule := by
  obtain ⟨u, hu, hkeeps⟩ := exec_next i s
  rw [h] at hu
  cases hu
  exact hkeeps

/-- Settles O27, from the frame shared by all handlers. -/
theorem handlersLeaveAssemblerAndCursor : Obligations.HandlersLeaveAssemblerAndCursor := fun _ _ _ =>
  exec_keeps_assembler

/-- Settles O25: with the id fixed, each handler reads only the fields on which the two orders agree. -/
theorem ignoredFieldsDoNotMatter : Obligations.IgnoredFieldsDoNotMatter := by
  intro i j s hid hcomplement harg0 harg1
  rw [← instrOf_fields j, ← hid]
  cases i with
  | lidarToggle c a b | motors c a b | motorsArg c a b | getVar c a b | track c a b =>
    rw [← hcomplement (by simp [Instr.id]), Instr.id]; rfl
  | move c a b | rotate c a b | pumps c a b =>
    rw [← harg1 (by simp [Instr.id]), Instr.id]; rfl
  | motorValue c a b | motorTime c a b =>
    rw [← hcomplement (by simp [Instr.id]), ← harg1 (by simp [Instr.id]), Instr.id]; rfl
  | setVar c a b =>
    rw [← hcomplement (by simp [Instr.id]), ← harg0 rfl, ← harg1 (by simp [Instr.id]), Instr.id]; rfl
  | _ => rw [Instr.id]; rfl

/-! #### A motors phase -/

/-- The entries of the pending list that a list of motor ids makes, sent from the top down (R118). -/
def filledEntries (ids : List Nibble) : List (Option Byte) := ids.reverse.map fun n => some (n.setWidth 8)

/-- R118: a fill below the count, and the entries from the filled one up. -/
theorem drop_fillPending_pendIDs {s : State} {k : Nat} (h : k + 1 = s.pendCount.toNat) (v : Byte) :
    (fillPending v s).pendIDs.toList.drop k = some v :: s.pendIDs.toList.drop (k + 1) := by
  have hlt := s.pendCount.isLt
  have hk : s.pendCount.toNat - 1 = k := by omega
  rw [fillPending_pendIDs, Vector.toList_setIfInBounds, hk, List.drop_eq_getElem_cons (by simp; omega),
    List.getElem_set_self, List.drop_set_of_lt k.lt_succ_self]

/-- R118: as many motors-arg orders as the count says fill the entries below it, send nothing, and leave the count
at 0 and, unless there were none, the MOTORS continuation. -/
theorem execAll_motorsArgs (a b : Bits16) (ids : List Nibble) (s : State) (h : ids.length = s.pendCount.toNat) :
    ∃ t, execAll (ids.map fun n => .motorsArg n a b) s = .next t ∧
      t.pendIDs.toList = filledEntries ids ++ s.pendIDs.toList.drop ids.length ∧
      t.pendCount = 0 ∧ t.pendLen = s.pendLen ∧
      (ids ≠ [] ∨ readSlot 7 s = .fireNext 7 → readSlot 7 t = .fireNext 7) ∧
      t.tx = s.tx ∧ t.fault = s.fault := by
  induction ids generalizing s with
  | nil =>
    exact ⟨s, rfl, rfl, BitVec.eq_of_toNat_eq h.symm, rfl, fun h => h.resolve_left fun e => e rfl, rfl, rfl⟩
  | cons n ids ih =>
    rw [List.length_cons] at h
    have hcount : s.pendCount ≠ 0 := fun e => by rw [e] at h; cases h
    have hleft := fillPending_count hcount (n.setWidth 8)
    obtain ⟨t, ht, hids, h0, hlen, hslot, htx, hfault⟩ :=
      ih (installIfFilled (fillPending (n.setWidth 8) s)) (by rw [installIfFilled_pendCount]; omega)
    refine ⟨t, ?_, ?_, h0, ?_, fun _ => hslot ?_, ?_, ?_⟩
    · rw [List.map_cons, execAll, exec_motorsArg hcount]
      exact ht
    · rw [hids, installIfFilled_pendIDs, drop_fillPending_pendIDs h]
      simp [filledEntries]
    · simpa using hlen
    · by_cases hnil : ids = []
      · refine .inr ((readSlot_installIfFilled_fillPending ..).trans (if_pos ⟨rfl, BitVec.eq_of_toNat_eq ?_⟩))
        rw [← h, hnil]
        rfl
      · exact .inl hnil
    · simpa using htx
    · simpa using hfault

/-- Settles O46: the list is filled below the count in reverse, and with the count at 0 the next motors-arg faults. -/
theorem motorsPhaseFillsInReverseThenFaults : Obligations.MotorsPhaseFillsInReverseThenFaults := by
  intro c a b ids s hc hlength
  have hne : ids ≠ [] := fun e => hc (BitVec.eq_of_toNat_eq (by rw [← hlength, e]; rfl))
  obtain ⟨t, ht, hids, h0, hlen, hslot, htx, hfault⟩ := execAll_motorsArgs a b ids (openSelection c s) hlength
  refine ⟨t, ht, ?_, h0, hlen, hslot (.inl hne), htx, hfault, fun n => exec_motorsArg_underflow h0 n a b⟩
  rw [livePending, hids, hlen, openSelection_pendLen, ← hlength]
  exact List.take_left' (by simp [filledEntries])

/-! #### A variable between set-var and get-var -/

/-- R14: an order that does not set the variable leaves it. -/
theorem readVar_exec {c : Nibble} {i : Instr} {s t : State} (hi : ∀ x y, i ≠ .setVar c x y)
    (h : exec i s = .next t) : readVar c t = readVar c s := by
  by_contra hne
  obtain ⟨d, x, y, rfl⟩ := (exec_writes h).1 fun hvars => hne (readVar_congr hvars c)
  have hcd : c ≠ d := fun e => hi x y (by rw [e])
  rw [exec_setVar] at h
  cases h
  exact hne (readVar_writeVar_ne hcd ..)

/-- R14: orders that do not set the variable leave it. -/
theorem readVar_execAll {c : Nibble} {is : List Instr} {s t : State}
    (his : ∀ i ∈ is, ∀ x y, i ≠ .setVar c x y) (h : execAll is s = .next t) : readVar c t = readVar c s := by
  induction is generalizing s with
  | nil => cases h; rfl
  | cons i is ih =>
    obtain ⟨u, hu, -⟩ := exec_next i s
    rw [execAll, hu] at h
    exact (ih (fun j hj => his j (List.mem_cons_of_mem i hj)) h).trans
      (readVar_exec (his i List.mem_cons_self) hu)

/-- Settles O47: the pattern is stored, kept by the orders between, and sent. -/
theorem variableReadsBackWhatWasSet : Obligations.VariableReadsBackWhatWasSet := by
  intro c a b a' b' between s t u v hbetween hset hrun hget
  have hstored : readVar c t = a ++ b := by
    rw [exec_setVar] at hset
    cases hset
    exact readVar_writeVar_same ..
  rw [exec_getVar, readVar_execAll hbetween hrun, hstored] at hget
  cases hget
  rfl

end Sys2Proof.Machine

/-! ### Steps: what every step that is no reset does, and what it writes -/

namespace Sys2Proof.Machine

/-- A reset answers the reset state with the rest of the schedule (R54, R200). -/
theorem step_reset {s : State} (h : nextMove s = .reset) : step s = .next (powerUp (dropMove s)) := by
  simp [step, takeMove, h]

/-- A stopped block has no step but a reset (R181). -/
theorem step_stopped {s : State} {code : FaultCode} (hf : s.fault = some code) (h : nextMove s ≠ .reset) :
    step s = .fault (.stopped code) := by
  cases hm : nextMove s with
  | reset => exact absurd hm h
  | rx b => simp [step_rx hm, rxStep, hf]
  | poll => simp [step, takeMove, hm, pollStep, hf]

/-- The state in which an arrived order's handler runs: the byte that completed its frame stored, the position back
at 0, and the order acknowledged (R91, R92, R95). -/
@[irreducible]
def acknowledged (b : Byte) (i : Instr) (s : State) : State :=
  emit (.ack i.id) (resetPosition (storeByte b (dropMove s)))

section
variable (b : Byte) (i : Instr) (s : State)

@[simp] theorem acknowledged_vars : (acknowledged b i s).vars = s.vars := by simp [acknowledged]
@[simp] theorem acknowledged_lidarStopped : (acknowledged b i s).lidarStopped = s.lidarStopped := by simp [acknowledged]
@[simp] theorem acknowledged_tracking : (acknowledged b i s).tracking = s.tracking := by simp [acknowledged]
@[simp] theorem acknowledged_tickTarget : (acknowledged b i s).tickTarget = s.tickTarget := by simp [acknowledged]
@[simp] theorem acknowledged_motorID : (acknowledged b i s).motorID = s.motorID := by simp [acknowledged]
@[simp] theorem acknowledged_motorValue : (acknowledged b i s).motorValue = s.motorValue := by simp [acknowledged]
@[simp] theorem acknowledged_motorTime : (acknowledged b i s).motorTime = s.motorTime := by simp [acknowledged]
@[simp] theorem acknowledged_pumpBitmask : (acknowledged b i s).pumpBitmask = s.pumpBitmask := by simp [acknowledged]
@[simp] theorem acknowledged_pendCount : (acknowledged b i s).pendCount = s.pendCount := by simp [acknowledged]
@[simp] theorem acknowledged_pendLen : (acknowledged b i s).pendLen = s.pendLen := by simp [acknowledged]
@[simp] theorem acknowledged_pendIDs : (acknowledged b i s).pendIDs = s.pendIDs := by simp [acknowledged]
@[simp] theorem acknowledged_slot : (acknowledged b i s).slot = s.slot := by simp [acknowledged]
@[simp] theorem acknowledged_pollCursor : (acknowledged b i s).pollCursor = s.pollCursor := by simp [acknowledged]
@[simp] theorem acknowledged_rxDiscard : (acknowledged b i s).rxDiscard = s.rxDiscard := by simp [acknowledged]
@[simp] theorem acknowledged_fault : (acknowledged b i s).fault = s.fault := by simp [acknowledged]
@[simp] theorem acknowledged_rxPos : (acknowledged b i s).rxPos = 0 := by simp [acknowledged]
@[simp] theorem acknowledged_rxBuf :
    (acknowledged b i s).rxBuf = s.rxBuf.set s.rxPos.val (some b) s.rxPos.isLt := by
  simp [acknowledged]
@[simp] theorem acknowledged_schedule : (acknowledged b i s).schedule = s.schedule.tail := by simp [acknowledged]
@[simp] theorem acknowledged_tx : (acknowledged b i s).tx = s.tx ++ framesBytes [.ack i.id] := by simp [acknowledged]

@[simp] theorem readVar_acknowledged (j : Nibble) : readVar j (acknowledged b i s) = readVar j s :=
  readVar_congr (acknowledged_vars b i s) j

@[simp] theorem readSlot_acknowledged (j : Nibble) : readSlot j (acknowledged b i s) = readSlot j s :=
  readSlot_congr (acknowledged_slot b i s) j

end

/-- The steps that are no reset: the Poller's, and the RX engine's three (R90, R91, R141). -/
inductive AgentStep (s : State) : State → Prop
  | poll (hm : nextMove s = .poll) (hf : s.fault = none) :
      AgentStep s (advanceCursor (evaluate s.pollCursor (dropMove s)))
  | discard (b : Byte) (hm : nextMove s = .rx b) (hf : s.fault = none) (hd : 0 < s.rxDiscard) :
      AgentStep s (discardByte (dropMove s))
  | store (b : Byte) (hm : nextMove s = .rx b) (hf : s.fault = none) (hd : s.rxDiscard = 0) (hp : s.rxPos ≠ 4) :
      AgentStep s (advancePosition (storeByte b (dropMove s)))
  | order (b : Byte) (i : Instr) (t : State) (hm : nextMove s = .rx b) (hf : s.fault = none) (hd : s.rxDiscard = 0)
      (hp : s.rxPos = 4) (ha : arrivingOrder s = some i) (hx : exec i (acknowledged b i s) = .next t) : AgentStep s t

theorem agentStep_of_step {s t : State} (h : step s = .next t) (hm : nextMove s ≠ .reset) : AgentStep s t := by
  rcases step_next h with ⟨hr, -⟩ | ⟨hp, hf, rfl⟩ | ⟨b, hb, hf, ⟨hd, rfl⟩ | ⟨hd, hp, rfl⟩ | ⟨hd, hp, f, ha, -, hx⟩⟩
  · exact absurd hr hm
  · exact .poll hp hf
  · exact .discard b hb hf hd
  · exact .store b hb hf hd hp
  · refine .order b _ t hb hf hd hp ha ?_
    rw [acknowledged, ← processFrame_eq, hx]

/-- A step that dispatches no order's handler leaves these fields, which only handlers write (R14 to R24, R31). -/
structure SameRegisters (s t : State) : Prop where
  vars : t.vars = s.vars
  lidarStopped : t.lidarStopped = s.lidarStopped
  tracking : t.tracking = s.tracking
  tickTarget : t.tickTarget = s.tickTarget
  motorID : t.motorID = s.motorID
  motorValue : t.motorValue = s.motorValue
  motorTime : t.motorTime = s.motorTime
  pumpBitmask : t.pumpBitmask = s.pumpBitmask
  pendCount : t.pendCount = s.pendCount
  pendLen : t.pendLen = s.pendLen
  pendIDs : t.pendIDs = s.pendIDs
  fault : t.fault = s.fault

/-- A step that is no reset either leaves the registers or runs the handler of the order that arrives. -/
theorem step_registers {s t : State} (h : step s = .next t) (hm : nextMove s ≠ .reset) :
    SameRegisters s t ∨ ∃ b i, arrivingOrder s = some i ∧ exec i (acknowledged b i s) = .next t := by
  cases agentStep_of_step h hm with
  | poll =>
    refine .inl ?_
    rw [pollerStep_fields]
    constructor <;> rfl
  | discard => exact .inl (by constructor <;> rfl)
  | store => exact .inl (by constructor <;> rfl)
  | order b i _ _ _ _ _ ha hx => exact .inr ⟨b, i, ha, hx⟩

/-- Settles O48: only the arriving order's handler writes the store, and only set-var of the index changes the entry. -/
theorem onlySetVarWritesVariables : Obligations.OnlySetVarWritesVariables := by
  intro s t i h hm hne
  rcases step_registers h hm with hsame | ⟨b, j, ha, hx⟩
  · exact absurd (readVar_congr hsame.vars i) hne
  · by_contra hno
    have hkeeps := readVar_exec (fun x y e => hno ⟨x, y, e ▸ ha⟩) hx
    exact hne (hkeeps.trans (readVar_acknowledged ..))

/-- Settles O49, from the handlers' writes. -/
theorem onlyTheirOrdersWriteTheFlags : Obligations.OnlyTheirOrdersWriteTheFlags := by
  intro s t h hm
  rcases step_registers h hm with hsame | ⟨b, i, ha, hx⟩
  · exact ⟨absurd hsame.lidarStopped, absurd hsame.tracking⟩
  · obtain ⟨-, hlidarStopped, htracking, -⟩ := exec_writes hx
    exact ⟨by simpa [ha] using hlidarStopped, by simpa [ha] using htracking⟩

/-- Settles O50, from the handlers' writes. -/
theorem onlyTheirOrdersWriteTheActuatorRegisters : Obligations.OnlyTheirOrdersWriteTheActuatorRegisters := by
  intro s t h hm
  rcases step_registers h hm with hsame | ⟨b, i, ha, hx⟩
  · exact ⟨absurd hsame.tickTarget, absurd hsame.motorID, absurd hsame.motorValue, absurd hsame.motorTime,
      absurd hsame.pumpBitmask⟩
  · obtain ⟨-, -, -, htickTarget, hmotorID, hmotorValue, hmotorTime, hpumpBitmask, -⟩ := exec_writes hx
    exact ⟨by simpa [ha] using htickTarget, by simpa [ha] using hmotorID, by simpa [ha] using hmotorValue,
      by simpa [ha] using hmotorTime, by simpa [ha] using hpumpBitmask⟩

/-- Settles O51, from the handlers' writes. -/
theorem onlyMotorsOrdersWriteTheSelection : Obligations.OnlyMotorsOrdersWriteTheSelection := by
  intro s t h hm
  rcases step_registers h hm with hsame | ⟨b, i, ha, hx⟩
  · exact ⟨fun hne => hne.elim (absurd hsame.pendCount) (absurd hsame.pendIDs), absurd hsame.pendLen⟩
  · obtain ⟨-, -, -, -, -, -, -, -, hselection, hlength, -⟩ := exec_writes hx
    exact ⟨by simpa [ha] using hselection, by simpa [ha] using hlength⟩

/-- R25, R142: a handler that changes a slot is the slot's own order's or cancel-move's. -/
theorem exec_writes_slot {i : Instr} {s t : State} {j : Nibble} (h : exec i s = .next t)
    (hne : readSlot j t ≠ readSlot j s) :
    ∃ c a b,
      (i = .move c a b ∧ j = 1) ∨ (i = .rotate c a b ∧ j = 2) ∨ (i = .cancelMove c a b ∧ (j = 1 ∨ j = 2)) ∨
      (i = .motorValue c a b ∧ j = 4) ∨ (i = .motorTime c a b ∧ j = 5) ∨
      (i = .motorsArg c a b ∧ j = 7 ∧ s.pendCount = 1) := by
  cases i with
  | move c a b =>
    cases h
    have hj : j = 1 := by_contra fun hj => hne (readSlot_install_ne hj ..)
    exact ⟨c, a, b, by simp [hj]⟩
  | rotate c a b =>
    cases h
    have hj : j = 2 := by_contra fun hj => hne (readSlot_install_ne hj ..)
    exact ⟨c, a, b, by simp [hj]⟩
  | cancelMove c a b =>
    cases h
    have hj : j = 1 ∨ j = 2 := by_contra fun hj =>
      hne ((readSlot_retire_two_retire_one j s).trans (if_neg hj))
    exact ⟨c, a, b, by simpa using hj⟩
  | motorValue c a b =>
    rw [exec_motorValue] at h
    cases h
    have hj : j = 4 := by_contra fun hj => hne (readSlot_install_ne hj ..)
    exact ⟨c, a, b, by simp [hj]⟩
  | motorTime c a b =>
    cases h
    have hj : j = 5 := by_contra fun hj => hne (readSlot_install_ne hj ..)
    exact ⟨c, a, b, by simp [hj]⟩
  | motorsArg c a b =>
    by_cases h0 : s.pendCount = 0
    · rw [exec_motorsArg_underflow h0] at h
      cases h
      exact absurd rfl hne
    · rw [exec_motorsArg h0] at h
      cases h
      have hj : j = 7 ∧ s.pendCount = 1 := by_contra fun hj =>
        hne ((readSlot_installIfFilled_fillPending ..).trans (if_neg hj))
      exact ⟨c, a, b, by simp [hj]⟩
  | _ => cases h; exact absurd rfl hne

/-- Settles O52: the Poller changes only the slot it evaluates, when it fires; else a handler wrote the slot. -/
theorem onlyHandlersAndThePollerWriteSlots : Obligations.OnlyHandlersAndThePollerWriteSlots := by
  intro s t i h hm hne
  cases agentStep_of_step h hm with
  | poll hmove =>
    have hread := readSlot_pollerStep i s
    by_cases hi : i = s.pollCursor
    · rw [if_pos hi] at hread
      have hfires : firing s.lidarStopped (readSlot i s) ≠ [] := fun hnil =>
        hne (hread.trans (afterEvaluation_of_firing_eq_nil hnil))
      exact .inl ⟨hmove, hi.symm, hread.trans (afterEvaluation_of_firing_ne_nil hfires)⟩
    · exact absurd (hread.trans (if_neg hi)) hne
  | discard => exact absurd (readSlot_congr rfl i) hne
  | store => exact absurd (readSlot_congr rfl i) hne
  | order b j _ _ _ _ _ ha hx =>
    rw [← readSlot_acknowledged b j s i] at hne
    exact .inr (by simpa [ha] using exec_writes_slot hx hne)

/-! #### The transmit stream -/

@[simp] theorem length_trackingBurst : trackingBurst.length = 500 := by
  rw [trackingBurst, List.length_map, List.length_range]

/-- R114, R166: no handler sends more than a burst. -/
theorem length_handlerFeedback_le (i : Instr) (s : State) : (handlerFeedback i s).length ≤ 500 := by
  cases i with
  | motorValue c a b => rw [handlerFeedback]; split <;> simp
  | _ => simp [handlerFeedback]

/-- R144: an evaluation sends at most one frame. -/
theorem length_firing_le (l : Bool) (k : Slot) : (firing l k).length ≤ 1 := by
  cases k with
  | idle => exact Nat.zero_le 1
  | awaitLidarRun target => cases l <;> simp [firing]
  | fireNext target => exact Nat.le_refl 1

/-- R92, R166: what an arrived order's step sends. -/
theorem exec_acknowledged_tx {b : Byte} {i : Instr} {s t : State} (h : exec i (acknowledged b i s) = .next t) :
    t.tx = s.tx ++ framesBytes (.ack i.id :: handlerFeedback i (acknowledged b i s)) := by
  obtain ⟨u, hu, htx⟩ := exec_handlerFeedback i (acknowledged b i s)
  rw [h] at hu
  cases hu
  rw [htx, acknowledged_tx, List.append_assoc, ← framesBytes_append, List.singleton_append]

/-- Settles O59: a step sends what the evaluated slot fires, or an ACK and its handler's feedback. -/
theorem stepsOnlyAppendWholeFrames : Obligations.StepsOnlyAppendWholeFrames := by
  intro s t h hm
  cases agentStep_of_step h hm with
  | poll =>
    refine ⟨firing s.lidarStopped (readSlot s.pollCursor s), (length_firing_le ..).trans (by decide), ?_⟩
    rw [pollerStep_fields]
  | discard => exact ⟨[], Nat.zero_le _, (List.append_nil _).symm⟩
  | store => exact ⟨[], Nat.zero_le _, (List.append_nil _).symm⟩
  | order b i _ _ _ _ _ _ hx =>
    refine ⟨_, ?_, exec_acknowledged_tx hx⟩
    rw [List.length_cons]
    exact Nat.succ_le_succ (length_handlerFeedback_le ..)

/-! #### The frame assembler -/

/-- R91: what an arrived order's step leaves of the assembler. -/
theorem exec_acknowledged_assembler {b : Byte} {i : Instr} {s t : State}
    (h : exec i (acknowledged b i s) = .next t) : t.rxPos = 0 ∧ t.rxDiscard = s.rxDiscard := by
  obtain ⟨hpos, -, hdiscard, -⟩ := exec_keeps_assembler h
  exact ⟨by simpa using hpos, by simpa using hdiscard⟩

/-- Settles O60: an accepted byte past the noise moves the position on or, as a frame's fifth, back to 0. -/
theorem positionCountsBytesModuloFive : Obligations.PositionCountsBytesModuloFive := by
  intro s t b h
  by_cases hm : nextMove s = .reset
  · simp [hm]
  cases agentStep_of_step h hm with
  | poll hmove =>
    rw [hmove, pollerStep_fields]
    simp
  | discard b' hmove _ hd =>
    rw [hmove]
    exact ⟨fun _ h0 => absurd h0 hd.ne', fun _ _ => ⟨rfl, Nat.sub_add_cancel hd⟩, by simp⟩
  | store b' hmove _ hd =>
    rw [hmove]
    exact ⟨fun _ _ => Fin.val_add s.rxPos 1, fun _ h0 => absurd hd h0, by simp⟩
  | order b' i _ hmove _ hd hp _ hx =>
    rw [hmove, (exec_acknowledged_assembler hx).1, hp]
    exact ⟨fun _ _ => rfl, fun _ h0 => absurd hd h0, by simp⟩

/-! #### The fault latch -/

/-- Settles O54: a stopped block's run can only begin with a reset. -/
theorem stoppedBlockOnlyLeavesByReset : Obligations.StoppedBlockOnlyLeavesByReset := by
  refine fun s code hf => ⟨step_stopped hf, fun n t hrun hnone => ?_⟩
  cases n with
  | zero =>
    cases hrun
    rw [hf] at hnone
    cases hnone
  | succ n =>
    obtain ⟨u, hu, -⟩ := run_succ_next hrun
    have hm : nextMove s = .reset := by_contra fun hm => by
      rw [step_stopped hf hm] at hu
      cases hu
    unfold nextMove at hm
    split at hm
    · cases hm
    · next m rest hs =>
      rw [hs, hm, List.take_succ_cons]
      exact List.mem_cons_self

/-- Settles O55: the registers hold the latch, so a handler set it, and only motors-arg's does. -/
theorem onlyMotorsArgUnderflowFaults : Obligations.OnlyMotorsArgUnderflowFaults := by
  intro s t hf h hfault
  by_cases hm : nextMove s = .reset
  · rw [step_reset hm] at h
    cases h
    exact absurd rfl hfault
  rcases step_registers h hm with hsame | ⟨b, i, ha, hx⟩
  · exact absurd (hsame.fault.trans hf) hfault
  · obtain ⟨-, -, -, -, -, -, -, -, -, -, hlatch⟩ := exec_writes hx
    obtain ⟨⟨c, a, d, rfl⟩, h0, rfl⟩ := hlatch fun e => hfault (by simpa [hf] using e)
    refine ⟨⟨c, a, d, ha⟩, by simpa using h0, ?_⟩
    rw [acknowledged, emit_eq_framesBytes]
    rfl

/-- R30, R91: the fifth byte of a held frame completes it. -/
theorem exists_bufferedFrame {s : State} (h : FrameHeld s) (hp : s.rxPos = 4) (b : Byte) :
    ∃ f, bufferedFrame (storeByte b s) = some f := by
  have hheld : ∀ k : Fin 5, k < 4 → ∃ v, s.rxBuf[k] = some v := fun k hk =>
    Option.isSome_iff_exists.mp (h k (hp ▸ hk))
  obtain ⟨b0, h0⟩ := hheld 0 (by decide)
  obtain ⟨b1, h1⟩ := hheld 1 (by decide)
  obtain ⟨b2, h2⟩ := hheld 2 (by decide)
  obtain ⟨b3, h3⟩ := hheld 3 (by decide)
  have hbuf := storeByte_completes (f := ⟨b0, b1, b2, b3, b⟩) hp h0 h1 h2 h3
  exact ⟨_, bufferedFrame_of_rxBuf hbuf⟩

/-- Settles O58: the Poller and the RX engine have a step while no fault is latched, and a frame that completes has
all its bytes. -/
theorem unstoppedBlockAlwaysSteps : Obligations.UnstoppedBlockAlwaysSteps := by
  intro s hheld hf
  cases hm : nextMove s with
  | reset => exact ⟨_, step_reset hm⟩
  | poll => exact ⟨_, step_poll hf hm⟩
  | rx b =>
    rw [step_rx hm]
    by_cases hd : s.rxDiscard = 0
    · by_cases hp : s.rxPos = 4
      · obtain ⟨f, hb⟩ := exists_bufferedFrame hheld hp b
        obtain ⟨t, ht, -⟩ := exec_next (decodeFrame f)
          (emit (.ack (decodeFrame f).id) (resetPosition (storeByte b (dropMove s))))
        exact ⟨t, (rxStep_frame (s := dropMove s) hf hd hp hb).trans ht⟩
      · exact ⟨_, rxStep_partial (s := dropMove s) hf hd hp⟩
    · exact ⟨_, rxStep_discard (s := dropMove s) hf (Nat.pos_of_ne_zero hd)⟩

end Sys2Proof.Machine

/-! ### Reset, the ports and the invariant (spec/70_reset_and_hazards.md, spec/10_state.md) -/

namespace Sys2Proof.Machine

/-- R201: every slot is Idle at reset. -/
@[simp] theorem readSlot_reset (i : Nibble) : readSlot i State.reset = .idle := by
  simp [readSlot, State.reset]

/-- R24, R26: the pending list holds no value at reset. -/
theorem reset_pendIDs (k : Fin 15) : State.reset.pendIDs[k] = none := Vector.getElem_replicate k.isLt

/-- R30: the frame buffer holds no value at reset. -/
theorem reset_rxBuf (k : Fin 5) : State.reset.rxBuf[k] = none := Vector.getElem_replicate k.isLt

/-- Settles O2: each field as the reset state gives it. -/
theorem resetLeavesTheDecidedValues : Obligations.ResetLeavesTheDecidedValues :=
  ⟨readSlot_reset, rfl, rfl, rfl, rfl, rfl, rfl, rfl, rfl, rfl, reset_pendIDs, rfl, rfl, rfl, reset_rxBuf, rfl, rfl⟩

/-- The next move is the head of the schedule. -/
theorem nextMove_cons {s : State} {m : Move} {rest : List Move} (h : s.schedule = m :: rest) : nextMove s = m := by
  rw [nextMove, h]

/-- Settles O3: the reset's step keeps the rest of the schedule alone. -/
theorem resetMoveRestoresTheResetState : Obligations.ResetMoveRestoresTheResetState := by
  intro s rest h
  rw [step_reset (nextMove_cons h), powerUp, dropMove_schedule, h]
  rfl

/-- R24: the live list has as many entries as its length says. -/
theorem length_livePending (s : State) : (livePending s).length = s.pendLen.toNat := by
  have hlt := s.pendLen.isLt
  rw [livePending, List.length_take, Vector.length_toList]
  omega

/-- R24: the live list's entries are the first of the whole list. -/
theorem getElem?_livePending {s : State} {k : Fin 15} (h : k.val < s.pendLen.toNat) :
    (livePending s)[k.val]? = some s.pendIDs[k] := by
  rw [livePending, List.getElem?_take_of_lt h]
  simp

/-- Settles O53: each port is its field, and the live list is the front of the list port. -/
theorem portsShowTheActuatorState : Obligations.PortsShowTheActuatorState := fun s =>
  ⟨rfl, rfl, rfl, rfl, rfl, rfl, rfl, rfl, rfl, length_livePending s, fun _ h => getElem?_livePending h⟩

/-! #### The invariant at reset, and what a step does to each of its clauses -/

/-- A reset leads to a state that meets the invariant (R200). -/
theorem inv_powerUp (s : State) : Inv (powerUp s) where
  discard := ⟨Nat.le_refl _, fun _ => rfl⟩
  frame := fun k hk => absurd hk (Fin.not_lt_zero k)
  slots := fun i => by rw [readSlot_congr (powerUp_slot s), readSlot_reset]; rfl
  selection := by
    refine ⟨Nat.le_refl _, fun k => ?_⟩
    rw [powerUp_pendIDs, reset_pendIDs]
    exact ⟨nofun, fun ⟨_, hlt⟩ => absurd hlt (Nat.not_lt_zero k)⟩
  motorIds := by
    refine ⟨show (0 : Byte).toNat < 16 by decide, fun k v h => ?_⟩
    rw [powerUp_pendIDs, reset_pendIDs] at h
    cases h
  tx := ⟨[], rfl⟩
  stopped := fun h => absurd rfl h

/-- Settles O56: the reset state is what a reset makes of it. -/
theorem resetSatisfiesTheInvariant : Obligations.ResetSatisfiesTheInvariant := inv_powerUp State.reset

/-- R28, R90: a step keeps the discard count in its range, and no frame begun before it is 0. -/
theorem step_discardInRange {s t : State} (h : step s = .next t) (hm : nextMove s ≠ .reset)
    (hinv : DiscardInRange s) : DiscardInRange t := by
  obtain ⟨hle, hbegun⟩ := hinv
  cases agentStep_of_step h hm with
  | poll => rw [pollerStep_fields]; exact ⟨hle, hbegun⟩
  | discard b _ _ hd => exact ⟨(Nat.sub_le ..).trans hle, fun _ => hbegun hd⟩
  | store b _ _ hd => exact ⟨hle, fun hpos => absurd hd hpos.ne'⟩
  | order b i _ _ _ hd _ _ hx =>
    obtain ⟨-, hdiscard⟩ := exec_acknowledged_assembler hx
    rw [DiscardInRange, hdiscard]
    exact ⟨hle, fun hpos => absurd hd hpos.ne'⟩

/-- R91: a stored byte is held, and so are the ones before it. -/
theorem frameHeld_store {s : State} (b : Byte) (hinv : FrameHeld s) :
    FrameHeld (advancePosition (storeByte b (dropMove s))) := by
  intro k hk
  have hlt : k ≤ s.rxPos := by
    simp only [advancePosition_rxPos, storeByte_rxPos, dropMove_rxPos] at hk
    omega
  simp only [advancePosition_rxBuf, storeByte_rxBuf, dropMove_rxBuf, dropMove_rxPos, Fin.getElem_fin]
  rw [Vector.getElem_set]
  split
  · rfl
  · exact hinv k (by omega)

/-- R30: a step keeps the bytes of a begun frame. -/
theorem step_frameHeld {s t : State} (h : step s = .next t) (hm : nextMove s ≠ .reset) (hinv : FrameHeld s) :
    FrameHeld t := by
  cases agentStep_of_step h hm with
  | poll => rw [pollerStep_fields]; exact hinv
  | discard => exact hinv
  | store b => exact frameHeld_store b hinv
  | order b i _ _ _ _ _ _ hx =>
    obtain ⟨hpos, -⟩ := exec_acknowledged_assembler hx
    intro k hk
    rw [hpos] at hk
    exact absurd hk (Fin.not_lt_zero k)

/-- R24, R118: a fill keeps the list filled from the count up. -/
theorem selectionLegal_fill {s : State} (v : Byte) (hinv : SelectionLegal s) (h0 : s.pendCount ≠ 0) :
    SelectionLegal (installIfFilled (fillPending v s)) := by
  obtain ⟨hle, hfilled⟩ := hinv
  have hcount := fillPending_count h0 v
  simp only [SelectionLegal, installIfFilled_pendCount, installIfFilled_pendLen, installIfFilled_pendIDs,
    fillPending_pendLen]
  refine ⟨by omega, fun k => ?_⟩
  have hentry := fillPending_entry h0 v k k.isLt
  rw [Fin.getElem_fin, hentry]
  split
  · simp only [Option.isSome_some, true_iff]
    omega
  · exact (hfilled k).trans (by omega)

/-- R22, R23, R24: a handler keeps the list filled from the count up. -/
theorem exec_selectionLegal {i : Instr} {s t : State} (h : exec i s = .next t) (hinv : SelectionLegal s) :
    SelectionLegal t := by
  cases i with
  | motors c a b =>
    cases h
    exact ⟨Nat.le_refl _, fun k => by simp⟩
  | motorsArg c a b =>
    by_cases h0 : s.pendCount = 0
    · rw [exec_motorsArg_underflow h0] at h
      cases h
      exact hinv
    · rw [exec_motorsArg h0] at h
      cases h
      exact selectionLegal_fill _ hinv h0
  | motorValue c a b => rw [exec_motorValue] at h; cases h; exact hinv
  | _ => cases h; exact hinv

/-- R18, R24: a handler takes motor ids from complements alone. -/
theorem exec_motorIdsSmall {i : Instr} {s t : State} (h : exec i s = .next t) (hinv : MotorIdsSmall s) :
    MotorIdsSmall t := by
  have hzext : ∀ c : Nibble, (c.setWidth 8 : Byte).toNat < 16 := by decide
  obtain ⟨hid, hids⟩ := hinv
  cases i with
  | motorValue c a b => rw [exec_motorValue] at h; cases h; exact ⟨hzext c, hids⟩
  | motorTime c a b => cases h; exact ⟨hzext c, hids⟩
  | motors c a b => cases h; exact ⟨hid, fun k v hv => by simp at hv⟩
  | motorsArg c a b =>
    by_cases h0 : s.pendCount = 0
    · rw [exec_motorsArg_underflow h0] at h
      cases h
      exact ⟨hid, hids⟩
    · rw [exec_motorsArg h0] at h
      cases h
      refine ⟨by simpa using hid, fun k v hv => ?_⟩
      rw [installIfFilled_pendIDs, Fin.getElem_fin, fillPending_entry h0 _ k k.isLt] at hv
      split at hv
      · cases hv
        exact hzext c
      · exact hids k v hv
  | _ => cases h; exact ⟨hid, hids⟩

/-- R24: the selection's clause depends on the selection alone. -/
theorem selectionLegal_congr {s t : State} (hsame : SameRegisters s t) (hinv : SelectionLegal s) :
    SelectionLegal t := by
  simpa only [SelectionLegal, hsame.pendCount, hsame.pendLen, hsame.pendIDs] using hinv

/-- R18, R24: the motor ids' clause depends on the motor id and the list alone. -/
theorem motorIdsSmall_congr {s t : State} (hsame : SameRegisters s t) (hinv : MotorIdsSmall s) :
    MotorIdsSmall t := by
  simpa only [MotorIdsSmall, hsame.motorID, hsame.pendIDs] using hinv

/-- R22, R23, R24: a step keeps the list filled from the count up. -/
theorem step_selectionLegal {s t : State} (h : step s = .next t) (hm : nextMove s ≠ .reset)
    (hinv : SelectionLegal s) : SelectionLegal t := by
  rcases step_registers h hm with hsame | ⟨b, i, -, hx⟩
  · exact selectionLegal_congr hsame hinv
  · exact exec_selectionLegal hx (by simpa [SelectionLegal] using hinv)

/-- R18, R24: a step keeps the motor ids in their range. -/
theorem step_motorIdsSmall {s t : State} (h : step s = .next t) (hm : nextMove s ≠ .reset)
    (hinv : MotorIdsSmall s) : MotorIdsSmall t := by
  rcases step_registers h hm with hsame | ⟨b, i, -, hx⟩
  · exact motorIdsSmall_congr hsame hinv
  · exact exec_motorIdsSmall hx (by simpa [MotorIdsSmall] using hinv)

/-- R32: a step appends whole frames to whole frames. -/
theorem step_txFramed {s t : State} (h : step s = .next t) (hm : nextMove s ≠ .reset) (hinv : TxFramed s) :
    TxFramed t := by
  obtain ⟨fs, hfs⟩ := hinv
  obtain ⟨gs, -, hgs⟩ := stepsOnlyAppendWholeFrames s t h hm
  exact ⟨fs ++ gs, by rw [hgs, hfs, framesBytes_append]⟩

/-- R182: a step that latches a fault explains it. -/
theorem step_faultExplained {s t : State} (h : step s = .next t) (hm : nextMove s ≠ .reset) (hinv : TxFramed s) :
    FaultExplained t := by
  intro hfault
  have hf : s.fault = none := by
    by_contra hne
    obtain ⟨code, hcode⟩ := Option.ne_none_iff_exists'.mp hne
    rw [step_stopped hcode hm] at h
    cases h
  obtain ⟨fs, hfs⟩ := hinv
  obtain ⟨-, h0, ht⟩ := onlyMotorsArgUnderflowFaults s t hf h hfault
  rw [ht]
  exact ⟨h0, fs, by rw [framesBytes_append, ← hfs]⟩

/-- Settles O57: a reset gives a state that meets the invariant, and every other step keeps each clause. -/
theorem stepKeepsTheInvariant : Obligations.StepKeepsTheInvariant := by
  intro s t hinv h
  by_cases hm : nextMove s = .reset
  · rw [step_reset hm] at h
    cases h
    exact inv_powerUp _
  · exact
      { discard := step_discardInRange h hm hinv.discard
        frame := step_frameHeld h hm hinv.frame
        slots := step_slotsLegal h hinv.slots
        selection := step_selectionLegal h hm hinv.selection
        motorIds := step_motorIdsSmall h hm hinv.motorIds
        tx := step_txFramed h hm hinv.tx
        stopped := step_faultExplained h hm hinv.tx }

end Sys2Proof.Machine

/-! ### The Poller: proofs of the statements on its steps and its runs (spec/42_completion.md) -/

namespace Sys2Proof.Machine

/-- Settles O35: the step is the Poller's, field by field. -/
theorem pollerStepEvaluatesOneSlot : Obligations.PollerStepEvaluatesOneSlot := by
  intro s hf hschedule
  have hm : nextMove s = .poll := by
    rcases hschedule with h | h
    · rw [nextMove, h]
    · obtain ⟨rest, hrest⟩ := List.head?_eq_some_iff.mp h
      exact nextMove_cons hrest
  refine ⟨_, step_poll hf hm, (readSlot_pollerStep ..).trans (if_pos rfl),
    fun j hj => (readSlot_pollerStep ..).trans (if_neg hj), ?_, ?_⟩
  · rw [pollerStep_fields]
    exact BitVec.toNat_add s.pollCursor 1
  · rw [pollerStep_fields]

/-- The Poller's step on everything but the schedule (R141). -/
def pollOnce (s : State) : State := advanceCursor (evaluate s.pollCursor s)

/-- The state with other slots, cursor and stream: what the Poller writes (R144, R151). -/
def polled (slots : Vector Slot 16) (cursor : Nibble) (tx : List Byte) (s : State) : State :=
  { s with slot := slots, pollCursor := cursor, tx := tx }

/-- The state with another content of the assembler and other coming moves: what the Poller never looks at. -/
def receiving (pos : Fin 5) (buf : Vector (Option Byte) 5) (moves : List Move) (s : State) : State :=
  { s with rxPos := pos, rxBuf := buf, schedule := moves }

theorem pollOnce_eq (s : State) :
    pollOnce s = polled
      (s.slot.set s.pollCursor.toNat (afterEvaluation s.lidarStopped (readSlot s.pollCursor s)) s.pollCursor.isLt)
      (s.pollCursor + 1) (s.tx ++ framesBytes (firing s.lidarStopped (readSlot s.pollCursor s))) s := by
  rw [pollOnce, evaluate_eq]
  rfl

theorem polled_self (s : State) : polled s.slot s.pollCursor s.tx s = s := rfl

theorem pollOnce_polled (slots : Vector Slot 16) (c : Nibble) (tx : List Byte) (s : State) :
    pollOnce (polled slots c tx s) = polled
      (slots.set c.toNat (afterEvaluation s.lidarStopped (slots[c.toNat]'c.isLt)) c.isLt)
      (c + 1) (tx ++ framesBytes (firing s.lidarStopped (slots[c.toNat]'c.isLt))) s :=
  pollOnce_eq _

/-- R144: the slots after the Poller's step. -/
theorem readSlot_pollOnce (j : Nibble) (s : State) :
    readSlot j (pollOnce s) =
      if j = s.pollCursor then afterEvaluation s.lidarStopped (readSlot j s) else readSlot j s := by
  by_cases hj : j = s.pollCursor
  · rw [if_pos hj, hj]
    exact readSlot_evaluate_same ..
  · rw [if_neg hj]
    exact readSlot_evaluate_ne hj s

/-- The Poller does not look at the assembler or the schedule (R151). -/
theorem pollOnce_receiving (pos : Fin 5) (buf : Vector (Option Byte) 5) (moves : List Move) (s : State) :
    pollOnce (receiving pos buf moves s) = receiving pos buf moves (pollOnce s) := by
  rw [pollOnce_eq, pollOnce_eq]
  rfl

theorem iterate_pollOnce_receiving (pos : Fin 5) (buf : Vector (Option Byte) 5) (moves : List Move) (n : Nat)
    (s : State) : pollOnce^[n] (receiving pos buf moves s) = receiving pos buf moves (pollOnce^[n] s) :=
  (Function.Commute.iterate_left (pollOnce_receiving pos buf moves) n) s

theorem ofNat_add_one (n : Nat) : BitVec.ofNat 4 n + 1 = BitVec.ofNat 4 (n + 1) := (BitVec.ofNat_add n 1).symm

/-- The cursor after one step more. -/
theorem cursor_add_succ (c : Nibble) (n : Nat) : c + BitVec.ofNat 4 n + 1 = c + BitVec.ofNat 4 (n + 1) := by
  rw [BitVec.add_assoc, ofNat_add_one]

/-- R32, R151: any number of Poller steps write the slots, the cursor and, in whole frames, the stream. -/
theorem exists_iterate_pollOnce_eq (n : Nat) (s : State) :
    ∃ slots fs, pollOnce^[n] s = polled slots (s.pollCursor + BitVec.ofNat 4 n) (s.tx ++ framesBytes fs) s := by
  induction n with
  | zero =>
    refine ⟨s.slot, [], ?_⟩
    rw [Function.iterate_zero_apply, BitVec.add_zero, framesBytes_nil, List.append_nil, polled_self]
  | succ n ih =>
    obtain ⟨slots, fs, h⟩ := ih
    rw [Function.iterate_succ_apply', h, pollOnce_polled, cursor_add_succ, List.append_assoc, ← framesBytes_append]
    exact ⟨_, _, rfl⟩

theorem iterate_pollOnce_pollCursor (n : Nat) (s : State) :
    (pollOnce^[n] s).pollCursor = s.pollCursor + BitVec.ofNat 4 n := by
  obtain ⟨_, _, h⟩ := exists_iterate_pollOnce_eq n s
  rw [h, polled]

theorem iterate_pollOnce_fault (n : Nat) (s : State) : (pollOnce^[n] s).fault = s.fault := by
  obtain ⟨_, _, h⟩ := exists_iterate_pollOnce_eq n s
  rw [h, polled]

theorem iterate_pollOnce_rxDiscard (n : Nat) (s : State) : (pollOnce^[n] s).rxDiscard = s.rxDiscard := by
  obtain ⟨_, _, h⟩ := exists_iterate_pollOnce_eq n s
  rw [h, polled]

theorem exists_iterate_pollOnce_tx (n : Nat) (s : State) : ∃ fs, (pollOnce^[n] s).tx = s.tx ++ framesBytes fs := by
  obtain ⟨_, fs, h⟩ := exists_iterate_pollOnce_eq n s
  exact ⟨fs, by rw [h, polled]⟩

/-- R141: the Poller's step of an unstopped block. -/
theorem step_eq_pollOnce {s : State} (hf : s.fault = none) (hm : nextMove s = .poll) :
    step s = .next (receiving s.rxPos s.rxBuf s.schedule.tail (pollOnce s)) := by
  rw [step_poll hf hm, pollerStep_fields, pollOnce_eq]
  rfl

/-- With only Poller moves to come the next one is the Poller's (entry 2 for an empty schedule). -/
theorem nextMove_of_take {s : State} {n : Nat} (h : ∀ m ∈ s.schedule.take (n + 1), m = .poll) :
    nextMove s = .poll := by
  cases hs : s.schedule with
  | nil => rw [nextMove, hs]
  | cons m rest =>
    rw [nextMove_cons hs]
    exact h m (by rw [hs, List.take_succ_cons]; exact List.mem_cons_self)

/-- A member of the front of a list's tail is one of the front of the list. -/
theorem mem_take_succ_of_mem_take_tail {α : Type} {x : α} {n : Nat} {l : List α} (h : x ∈ l.tail.take n) :
    x ∈ l.take (n + 1) := by
  cases l with
  | nil => simp at h
  | cons y l => exact List.mem_cons_of_mem y h

/-- R141, R150: an unstopped block whose first `n` moves to come are the Poller's takes `n` Poller steps. -/
theorem run_polls {n : Nat} {s : State} (hf : s.fault = none) (hpolls : ∀ m ∈ s.schedule.take n, m = .poll) :
    runSteps n s = .next (receiving s.rxPos s.rxBuf (s.schedule.drop n) (pollOnce^[n] s)) := by
  induction n generalizing s with
  | zero => rfl
  | succ n ih =>
    rw [run_succ (step_eq_pollOnce hf (nextMove_of_take hpolls)), ih]
    · rw [iterate_pollOnce_receiving, Function.iterate_succ_apply, ← List.drop_tail]
      rfl
    · exact (iterate_pollOnce_fault 1 s).trans hf
    · intro m hmem
      exact hpolls m (mem_take_succ_of_mem_take_tail hmem)

/-- The moves to come of a schedule without bytes and resets are the Poller's. -/
theorem take_polls {s : State} (h : OnlyPolls s) (n : Nat) : ∀ m ∈ s.schedule.take n, m = .poll :=
  fun m hm => h m (List.mem_of_mem_take hm)

/-! #### One loop iteration -/

/-- The slots when a loop iteration has evaluated the first `n` of them (R140). -/
def sweptSlots (lidarStopped : Bool) (n : Nat) (slots : Vector Slot 16) : Vector Slot 16 :=
  slots.mapIdx fun k content => if k < n then afterEvaluation lidarStopped content else content

theorem getElem_sweptSlots (l : Bool) (n : Nat) (slots : Vector Slot 16) {k : Nat} (hk : k < 16) :
    (sweptSlots l n slots)[k] = if k < n then afterEvaluation l slots[k] else slots[k] :=
  Vector.getElem_mapIdx hk

/-- R140: evaluating the next slot sweeps one slot more. -/
theorem set_sweptSlots (l : Bool) {n : Nat} (slots : Vector Slot 16) (hn : n < 16) :
    (sweptSlots l n slots).set n (afterEvaluation l slots[n]) = sweptSlots l (n + 1) slots := by
  ext k hk : 1
  rw [Vector.getElem_set, getElem_sweptSlots, getElem_sweptSlots]
  split
  · next hnk => subst hnk; rw [if_pos (Nat.lt_succ_self _)]
  · next hnk => simp only [Nat.lt_succ_iff_lt_or_eq, Ne.symm hnk, or_false]

/-- R140, R141: a loop iteration's first `n` steps. -/
theorem iterate_pollOnce_from_zero {s : State} (h0 : s.pollCursor = 0) {n : Nat} (hn : n ≤ 16) :
    pollOnce^[n] s = polled (sweptSlots s.lidarStopped n s.slot) (BitVec.ofNat 4 n)
      (s.tx ++ framesBytes ((s.slot.toList.take n).flatMap (firing s.lidarStopped))) s := by
  induction n with
  | zero =>
    have hnone : sweptSlots s.lidarStopped 0 s.slot = s.slot := by
      ext k hk : 1
      rw [getElem_sweptSlots, if_neg k.not_lt_zero]
    rw [Function.iterate_zero_apply, hnone, List.take_zero, List.flatMap_nil, framesBytes_nil, List.append_nil]
    rw [show BitVec.ofNat 4 0 = s.pollCursor from h0.symm, polled_self]
  | succ n ih =>
    have hlt : n < 16 := hn
    have hcursor : (BitVec.ofNat 4 n).toNat = n := by rw [BitVec.toNat_ofNat, Nat.mod_eq_of_lt hlt]
    have htake : s.slot.toList.take (n + 1) = s.slot.toList.take n ++ [s.slot[n]] := by
      rw [List.take_succ_eq_append_getElem (by simpa using hlt), Vector.getElem_toList]
    rw [Function.iterate_succ_apply', ih (Nat.le_of_lt hlt), pollOnce_polled]
    simp only [hcursor, getElem_sweptSlots, lt_irrefl, if_false, set_sweptSlots, htake, ofNat_add_one,
      List.flatMap_append, List.flatMap_singleton, framesBytes_append, List.append_assoc]

/-- Settles O36: sixteen steps sweep all sixteen slots and bring the cursor back. -/
theorem loopIterationEvaluatesAllSlotsInIdOrder : Obligations.LoopIterationEvaluatesAllSlotsInIdOrder := by
  intro s hf hpolls h0
  have hswept : sweptSlots s.lidarStopped 16 s.slot = s.slot.map (afterEvaluation s.lidarStopped) := by
    ext k hk : 1
    rw [getElem_sweptSlots, if_pos hk, Vector.getElem_map]
  have hall : s.slot.toList.take 16 = s.slot.toList := List.take_of_length_le (by simp)
  rw [run_polls hf (take_polls hpolls 16), iterate_pollOnce_from_zero h0 (Nat.le_refl 16), hswept, hall,
    show BitVec.ofNat 4 16 = s.pollCursor from h0.symm]
  rfl

/-! #### Idle slots -/

/-- R145: with the slot under the cursor Idle the Poller only moves its cursor. -/
theorem pollOnce_of_idle {s : State} (h : readSlot s.pollCursor s = .idle) : pollOnce s = advanceCursor s := by
  rw [pollOnce, evaluate_of_idle h]

/-- R145, R201: with every slot Idle the Poller only moves its cursor. -/
theorem iterate_pollOnce_of_idle {s : State} (h : ∀ i, readSlot i s = .idle) (n : Nat) :
    pollOnce^[n] s = polled s.slot (s.pollCursor + BitVec.ofNat 4 n) s.tx s := by
  induction n with
  | zero => rw [Function.iterate_zero_apply, BitVec.add_zero, polled_self]
  | succ n ih =>
    have hmoved := pollOnce_of_idle (s := polled s.slot (s.pollCursor + BitVec.ofNat 4 n) s.tx s) (h _)
    rw [Function.iterate_succ_apply', ih, hmoved, ← cursor_add_succ]
    rfl

/-- Settles O40: each step finds an Idle slot. -/
theorem idleSlotsStaySilent : Obligations.IdleSlotsStaySilent := by
  intro n s hf hpolls hidle
  refine ⟨_, run_polls hf (take_polls hpolls n), ?_⟩
  rw [iterate_pollOnce_of_idle hidle]
  refine ⟨rfl, hidle, ?_⟩
  exact (BitVec.toNat_add ..).trans (by rw [BitVec.toNat_ofNat, Nat.add_mod_mod])

/-- R144: what the Poller's step sends. -/
theorem pollOnce_tx (s : State) :
    (pollOnce s).tx = s.tx ++ framesBytes (firing s.lidarStopped (readSlot s.pollCursor s)) := by
  rw [pollOnce_eq, polled]

/-- R146, R152: the Poller's step on a pending motion releases it while the flag is false. -/
theorem pollOnce_of_awaitLidarRun {s : State} {target : Nibble} (hl : s.lidarStopped = false)
    (h : readSlot s.pollCursor s = .awaitLidarRun target) :
    (pollOnce s).tx = s.tx ++ framesBytes [.term target] ∧ readSlot s.pollCursor (pollOnce s) = .idle := by
  rw [pollOnce_tx, readSlot_pollOnce, if_pos rfl, h, hl]
  exact ⟨rfl, rfl⟩

/-- R145, R152: with only the move pending and the flag false, the tick of slot 1 leaves every slot Idle. -/
theorem run_one_of_released_move {t : State} (hf : t.fault = none) (hl : t.lidarStopped = false)
    (hcursor : t.pollCursor = 1) (hpolls : OnlyPolls t) (hidle : ∀ j, j ≠ 1 → readSlot j t = .idle)
    (hmove : readSlot 1 t = .awaitLidarRun 1) :
    ∃ u, runSteps 1 t = .next u ∧ u.tx = t.tx ++ framesBytes [.term 1] ∧ (∀ j, readSlot j u = .idle) ∧
      u.fault = none ∧ OnlyPolls u := by
  obtain ⟨htx, hfired⟩ := pollOnce_of_awaitLidarRun (target := 1) hl (by rw [hcursor, hmove])
  refine ⟨_, run_polls hf (take_polls hpolls 1), htx, fun j => ?_, (iterate_pollOnce_fault 1 t).trans hf,
    fun m hm => hpolls m (List.mem_of_mem_drop hm)⟩
  rw [hcursor] at hfired
  by_cases hj : j = 1
  · rw [hj]
    exact hfired
  · have hother := readSlot_pollOnce j t
    rw [hcursor, if_neg hj, hidle j hj] at hother
    exact hother

/-- Settles O39: the flag's clearing lets the next tick fire the move, after which every slot is Idle. -/
theorem lidarRunReleasesAPendingMove : Obligations.LidarRunReleasesAPendingMove := by
  intro a b s hf hcursor hpolls hidle hmove
  obtain ⟨u, hrun, htx, hall, hfu, hpollsu⟩ := run_one_of_released_move
    (t := { s with lidarStopped := false, tx := s.tx ++ framesBytes [.term 0] }) hf rfl hcursor hpolls hidle hmove
  refine ⟨_, u, lidarToggleSetsItsFlagAndTerminates 0 a b s, hrun, ?_, hall 1, fun n => ?_⟩
  · rw [htx, List.append_assoc, ← framesBytes_append]
    rfl
  · obtain ⟨v, hv, hsilent, -⟩ := idleSlotsStaySilent n u hfu hpollsu hall
    exact ⟨v, hv, hsilent⟩

/-! #### A FireNext continuation -/

/-- R143: a legal FireNext is the continuation of slot 4, 5 or 7. -/
theorem eq_of_legalSlot_fireNext {i target : Nibble} (h : legalSlot i (.fireNext target) = true) :
    target = i ∧ (i = 4 ∨ i = 5 ∨ i = 7) := by
  revert i target
  decide

/-- R143: a legal AwaitLidarRun is the continuation of slot 1 or 2. -/
theorem eq_of_legalSlot_awaitLidarRun {i target : Nibble} (h : legalSlot i (.awaitLidarRun target) = true) :
    target = i ∧ (i = 1 ∨ i = 2) := by
  revert i target
  decide

/-- R147: a byte's step leaves a FireNext in its slot. -/
theorem step_rx_keeps_fireNext {b : Byte} {s t : State} {i target : Nibble} (hlegal : SlotsLegal s)
    (hslot : readSlot i s = .fireNext target) (hm : nextMove s = .rx b) (h : step s = .next t) :
    readSlot i t = .fireNext target := by
  obtain ⟨rfl, hi⟩ := eq_of_legalSlot_fireNext (hslot ▸ hlegal i)
  obtain ⟨-, -, hslots, -⟩ := step_rx_slots h hm
  rcases hslots target with hsame | ⟨-, hmotion, -⟩ | ⟨-, hmotion⟩ | ⟨hinstalled, -⟩
  · rw [hsame, hslot]
  · rcases hmotion with rfl | rfl <;> simp at hi
  · rcases hmotion with rfl | rfl <;> simp at hi
  · exact hinstalled

/-- R147: a Poller step on another slot leaves a FireNext in its slot. -/
theorem step_poll_keeps_fireNext {s t : State} {i target : Nibble} (hslot : readSlot i s = .fireNext target)
    (hm : nextMove s = .poll) (hi : i ≠ s.pollCursor) (h : step s = .next t) : readSlot i t = .fireNext target := by
  rw [step_poll_next h hm, readSlot_pollerStep, if_neg hi, hslot]

/-- R147, R148: the Poller step on its slot fires a FireNext. -/
theorem step_poll_fires {s t : State} {i target : Nibble} (hslot : readSlot i s = .fireNext target)
    (hm : nextMove s = .poll) (hi : s.pollCursor = i) (h : step s = .next t) :
    readSlot i t = .idle ∧ t.tx = s.tx ++ framesBytes [.term target] := by
  have hread := readSlot_pollerStep i s
  rw [← step_poll_next h hm, if_pos hi.symm, hslot] at hread
  refine ⟨hread, ?_⟩
  rw [step_poll_next h hm, pollerStep_fields, hi, hslot]
  rfl

/-- The distance from the cursor to a slot goes down by one with each step towards it. -/
theorem distance_succ {i c : Nibble} {n : Nat} (h : n + 1 = (i - c).toNat) : n = (i - (c + 1)).toNat := by
  bv_omega

/-- A cursor that has not yet covered the distance to a slot is not on it. -/
theorem cursor_ne_of_lt_distance {i c : Nibble} {n : Nat} (h : n < (i - c).toNat) : i ≠ c + BitVec.ofNat 4 n := by
  bv_omega

/-- A cursor that has covered the distance to a slot is on it. -/
theorem cursor_add_distance (i c : Nibble) : c + BitVec.ofNat 4 (i - c).toNat = i := by
  bv_omega

/-- R147, R149: through any bytes, and as many Poller moves as the cursor is away from the slot, a FireNext stays,
and the next Poller move fires it. -/
theorem run_fires {s t : State} {i target : Nibble} {before rest : List Move} (hlegal : SlotsLegal s)
    (hslot : readSlot i s = .fireNext target) (hschedule : s.schedule = before ++ .poll :: rest)
    (hreset : Move.reset ∉ before) (hcount : before.count .poll = (i - s.pollCursor).toNat)
    (hrun : runSteps (before.length + 1) s = .next t) :
    readSlot i t = .idle ∧ ∃ fs, t.tx = s.tx ++ framesBytes (fs ++ [.term target]) := by
  induction before generalizing s with
  | nil =>
    rw [List.length_nil, Nat.zero_add, run_one] at hrun
    have hi : s.pollCursor = i := by
      rw [List.count_nil] at hcount
      bv_omega
    obtain ⟨hidle, htx⟩ := step_poll_fires hslot (nextMove_cons hschedule) hi hrun
    exact ⟨hidle, [], htx⟩
  | cons m before ih =>
    obtain ⟨u, hu, hrest⟩ := run_succ_next hrun
    have hm : nextMove s = m := nextMove_cons hschedule
    have hnoreset : nextMove s ≠ .reset := fun e => hreset (by rw [← hm, e]; exact List.mem_cons_self)
    have hreset' : Move.reset ∉ before := fun e => hreset (List.mem_cons_of_mem m e)
    obtain ⟨fs, -, hfs⟩ := stepsOnlyAppendWholeFrames s u hu hnoreset
    have hkeeps : readSlot i u = .fireNext target ∧ u.schedule = before ++ .poll :: rest ∧
        before.count .poll = (i - u.pollCursor).toNat := by
      cases m with
      | reset => exact absurd hm hnoreset
      | rx b =>
        obtain ⟨hcursor, htail, -⟩ := step_rx_slots hu hm
        refine ⟨step_rx_keeps_fireNext hlegal hslot hm hu, by rw [htail, hschedule]; rfl, ?_⟩
        rw [hcursor, ← hcount, List.count_cons_of_ne (by simp)]
      | poll =>
        rw [List.count_cons_self] at hcount
        have hi : i ≠ s.pollCursor := by bv_omega
        refine ⟨step_poll_keeps_fireNext hslot hm hi hu, ?_, ?_⟩
        · rw [step_poll_next hu hm, pollerStep_fields, hschedule]
          rfl
        · rw [step_poll_next hu hm, pollerStep_fields]
          exact distance_succ hcount
    obtain ⟨hslot', hschedule', hcount'⟩ := hkeeps
    obtain ⟨hidle, gs, hgs⟩ := ih (step_slotsLegal hu hlegal) hslot' hschedule' hreset' hcount' hrest
    exact ⟨hidle, fs ++ gs, by rw [hgs, hfs, List.append_assoc, ← framesBytes_append, List.append_assoc]⟩

/-- R149: a FireNext stays while the cursor has not come to its slot. -/
theorem iterate_pollOnce_keeps_fireNext {s : State} {i target : Nibble} (hslot : readSlot i s = .fireNext target)
    {n : Nat} (hn : n ≤ (i - s.pollCursor).toNat) : readSlot i (pollOnce^[n] s) = .fireNext target := by
  induction n with
  | zero => exact hslot
  | succ n ih =>
    rw [Function.iterate_succ_apply', readSlot_pollOnce, iterate_pollOnce_pollCursor,
      if_neg (cursor_ne_of_lt_distance hn), ih (Nat.le_of_succ_le hn)]

/-- R147, R149: the Poller alone fires a FireNext when its cursor comes to the slot. -/
theorem iterate_pollOnce_fires {s : State} {i target : Nibble} (hslot : readSlot i s = .fireNext target) :
    readSlot i (pollOnce^[(i - s.pollCursor).toNat + 1] s) = .idle ∧
      ∃ fs, (pollOnce^[(i - s.pollCursor).toNat + 1] s).tx = s.tx ++ framesBytes (fs ++ [.term target]) := by
  have hthere := iterate_pollOnce_keeps_fireNext hslot (Nat.le_refl _)
  have hcursor := (iterate_pollOnce_pollCursor (i - s.pollCursor).toNat s).trans (cursor_add_distance i s.pollCursor)
  obtain ⟨fs, hfs⟩ := exists_iterate_pollOnce_tx (i - s.pollCursor).toNat s
  rw [Function.iterate_succ_apply', readSlot_pollOnce, pollOnce_tx, hcursor, if_pos rfl, hthere, hfs,
    List.append_assoc, ← framesBytes_append]
  exact ⟨rfl, fs, rfl⟩

/-- Settles O37: one step by the move it takes, a schedule by induction on its moves, and the Poller alone by counting
its cursor. -/
theorem fireNextFiresAtItsSlotsNextTick : Obligations.FireNextFiresAtItsSlotsNextTick := by
  refine ⟨fun s t i target hlegal hslot hm h => ⟨fun hother => ?_, fun ⟨hpoll, hi⟩ => ?_⟩,
    fun s t i target before rest => run_fires, fun s i target hf hpolls hslot => ⟨fun n hn => ?_, ?_⟩⟩
  · cases hmove : nextMove s with
    | reset => exact absurd hmove hm
    | rx b => exact step_rx_keeps_fireNext hlegal hslot hmove h
    | poll => exact step_poll_keeps_fireNext hslot hmove (fun e => hother ⟨hmove, e.symm⟩) h
  · exact step_poll_fires hslot hpoll hi h
  · exact ⟨_, run_polls hf (take_polls hpolls n), iterate_pollOnce_keeps_fireNext hslot hn⟩
  · obtain ⟨hidle, fs, hfs⟩ := iterate_pollOnce_fires hslot
    exact ⟨_, fs, run_polls hf (take_polls hpolls _), hidle, hfs⟩

/-! #### A motion held by the stopped lidar -/

/-- No order arrives with a Poller move. -/
theorem arrivingOrder_of_poll {s : State} (h : nextMove s = .poll) : arrivingOrder s = none := by
  unfold arrivingOrder
  rw [h]
  cases s.fault <;> rfl

/-- R146: a Poller step keeps a motion held, and what another slot fires is not its TERMINATE. -/
theorem step_poll_keeps_held {s t : State} {i target : Nibble} (hlegal : SlotsLegal s) (hl : s.lidarStopped = true)
    (hslot : readSlot i s = .awaitLidarRun target) (hm : nextMove s = .poll) (h : step s = .next t) :
    t.lidarStopped = true ∧ readSlot i t = .awaitLidarRun target ∧
      ∃ fs, t.tx = s.tx ++ framesBytes fs ∧ Feedback.term target ∉ fs := by
  obtain ⟨rfl, hi⟩ := eq_of_legalSlot_awaitLidarRun (hslot ▸ hlegal i)
  rw [step_poll_next h hm, readSlot_pollerStep, pollerStep_fields, hslot, hl]
  refine ⟨rfl, by split <;> rfl, _, rfl, ?_⟩
  cases hk : readSlot s.pollCursor s with
  | idle => simp [firing]
  | awaitLidarRun other => simp [firing]
  | fireNext other =>
    obtain ⟨rfl, hother⟩ := eq_of_legalSlot_fireNext (hk ▸ hlegal s.pollCursor)
    rw [firing, List.mem_singleton, Feedback.term.injEq]
    rintro rfl
    rcases hi with hi | hi <;> simp [hi] at hother

/-- R146, R212: a byte's step keeps a motion held unless it dispatches a lidar-toggle that clears the flag or a
cancel-move, and no handler sends a motion's TERMINATE. -/
theorem step_rx_keeps_held {b : Byte} {s t : State} {i target : Nibble} (hlegal : SlotsLegal s)
    (hl : s.lidarStopped = true) (hslot : readSlot i s = .awaitLidarRun target) (hheld : LeavesMotionHeld s)
    (hm : nextMove s = .rx b) (h : step s = .next t) :
    t.lidarStopped = true ∧ readSlot i t = .awaitLidarRun target ∧
      ∃ fs, t.tx = s.tx ++ framesBytes fs ∧ Feedback.term target ∉ fs := by
  obtain ⟨rfl, hi⟩ := eq_of_legalSlot_awaitLidarRun (hslot ▸ hlegal i)
  obtain ⟨-, hnorun, hnocancel⟩ := hheld
  obtain ⟨-, -, hslots, hflag, fs, htx, hsent⟩ := step_rx_slots h hm
  refine ⟨?_, ?_, fs, htx, fun hmem => ?_⟩
  · by_contra hne
    obtain ⟨c, a, d, ha, htoggled⟩ := hflag (by rwa [hl])
    exact hne (htoggled.trans (bne_iff_ne.mpr (hnorun c a d ha)))
  · rcases hslots target with hsame | ⟨-, -, c, a, d, ha⟩ | ⟨hinstalled, -⟩ | ⟨-, hfire⟩
    · rw [hsame, hslot]
    · exact absurd ha (hnocancel c a d)
    · exact hinstalled
    · rcases hi with hi | hi <;> simp [hi] at hfire
  · have hid := hsent target hmem
    rcases hi with hi | hi <;> simp [hi] at hid

/-- R146, R212: a step that does not end the hold keeps a motion held and does not send its TERMINATE. -/
theorem step_keeps_held {s t : State} {i target : Nibble} (hlegal : SlotsLegal s) (hl : s.lidarStopped = true)
    (hslot : readSlot i s = .awaitLidarRun target) (hheld : LeavesMotionHeld s) (h : step s = .next t) :
    t.lidarStopped = true ∧ readSlot i t = .awaitLidarRun target ∧
      ∃ fs, t.tx = s.tx ++ framesBytes fs ∧ Feedback.term target ∉ fs := by
  cases hm : nextMove s with
  | reset => exact absurd hm hheld.1
  | poll => exact step_poll_keeps_held hlegal hl hslot hm h
  | rx b => exact step_rx_keeps_held hlegal hl hslot hheld hm h

/-- R146, R212: a run of such steps keeps a motion held and does not send its TERMINATE. -/
theorem run_keeps_held {n : Nat} {s t : State} {i target : Nibble} (hlegal : SlotsLegal s)
    (hl : s.lidarStopped = true) (hslot : readSlot i s = .awaitLidarRun target)
    (hheld : ∀ m, m < n → ∀ u, runSteps m s = .next u → LeavesMotionHeld u) (hrun : runSteps n s = .next t) :
    readSlot i t = .awaitLidarRun target ∧
      ∃ fs, t.tx = s.tx ++ framesBytes fs ∧ Feedback.term target ∉ fs := by
  induction n generalizing s with
  | zero =>
    cases hrun
    exact ⟨hslot, [], (List.append_nil _).symm, List.not_mem_nil⟩
  | succ n ih =>
    obtain ⟨u, hu, hrest⟩ := run_succ_next hrun
    obtain ⟨hlu, hslotu, fs, hfs, hnot⟩ := step_keeps_held hlegal hl hslot (hheld 0 n.succ_pos s rfl) hu
    obtain ⟨hslott, gs, hgs, hnot'⟩ := ih (step_slotsLegal hu hlegal) hlu hslotu
      (fun m hm v hv => hheld (m + 1) (Nat.succ_lt_succ hm) v ((run_succ hu m).trans hv)) hrest
    refine ⟨hslott, fs ++ gs, ?_, fun hmem => (List.mem_append.mp hmem).elim hnot hnot'⟩
    rw [hgs, hfs, List.append_assoc, ← framesBytes_append]

/-- With no byte and no reset to come, nothing ends the hold. -/
theorem leavesMotionHeld_of_onlyPolls {s : State} (h : OnlyPolls s) : LeavesMotionHeld s := by
  have hm := nextMove_of_onlyPolls h
  simp [LeavesMotionHeld, hm, arrivingOrder_of_poll hm]

/-- Settles O38: one step by the move it takes, runs by induction, and the Poller alone as such a run. -/
theorem stoppedLidarHoldsMotionForever : Obligations.StoppedLidarHoldsMotionForever := by
  refine ⟨fun s t i target hlegal hl hslot hheld h =>
      ⟨step_slotsLegal h hlegal, step_keeps_held hlegal hl hslot hheld h⟩,
    fun n s t i target => run_keeps_held, fun n s i target hf hpolls hlegal hl hslot => ?_⟩
  have hrun : ∀ m, runSteps m s = .next _ := fun m => run_polls hf (take_polls hpolls m)
  obtain ⟨hheld, fs, hfs, hnot⟩ := run_keeps_held hlegal hl hslot (fun m _ u hu => by
    rw [hrun m] at hu
    cases hu
    exact leavesMotionHeld_of_onlyPolls fun m hm => hpolls m (List.mem_of_mem_drop hm)) (hrun n)
  exact ⟨_, fs, hrun n, hheld, hfs, hnot⟩

end Sys2Proof.Machine

/-! ### The receive path: proofs of the statements on bytes and frames (spec/40_receive.md) -/

namespace Sys2Proof.Machine

/-- Settles O28: the byte completes the buffer, and the frame in it is processed. -/
theorem stepRunsTheDecodedOrder : Obligations.StepRunsTheDecodedOrder := by
  intro f rest s hf hd hp h0 h1 h2 h3 hschedule
  have hbuf := storeByte_completes hp h0 h1 h2 h3
  have htail : s.schedule.tail = rest := by rw [hschedule]; rfl
  rw [step_rx (nextMove_cons hschedule),
    rxStep_frame (s := dropMove s) hf hd hp (bufferedFrame_of_rxBuf (s := storeByte f.byte4 (dropMove s)) hbuf),
    emit_eq_framesBytes, ← hbuf, ← htail]
  rfl

/-- Settles O29: the placed frame is the word's, and its last byte is the next move. -/
theorem placedWordRunsAtTheNextStep : Obligations.PlacedWordRunsAtTheNextStep := by
  intro i s hf
  have hrun := stepRunsTheDecodedOrder (encodeFrame i) s.schedule (placeFrame (encodeFrame i) s) hf rfl rfl
    rfl rfl rfl rfl rfl
  rw [decodeFrame_encodeFrame] at hrun
  rw [State.withFetchWord, frameOfTableWord_word, hrun]
  rfl

/-- R91: below 4 the position moves on without wrapping. -/
theorem rxPos_succ_val {p : Fin 5} (h : p ≠ 4) : (p + 1).val = p.val + 1 := by
  omega

/-- Settles O30: a noise byte is dropped, a byte of an incomplete frame stored. -/
theorem byteBeforeAFrameEndOnlyMovesTheAssembler : Obligations.ByteBeforeAFrameEndOnlyMovesTheAssembler := by
  intro b rest s hf hschedule
  have htail : s.schedule.tail = rest := by rw [hschedule]; rfl
  rw [step_rx (nextMove_cons hschedule), ← htail]
  refine ⟨fun hd => rxStep_discard (s := dropMove s) hf (Nat.pos_of_ne_zero hd), fun hd hp => ?_⟩
  refine ⟨_, rxStep_partial (s := dropMove s) hf hd hp, rxPos_succ_val hp, fun k => ?_, rfl⟩
  rw [advancePosition_rxBuf, storeByte_rxBuf, Fin.getElem_fin, Vector.getElem_set]
  simp only [eq_comm (a := k), Fin.ext_iff]
  rfl

/-! #### A frame's bytes with Poller steps between them -/

/-- R141, R151: Poller steps, whatever the assembler holds and whatever comes after them. -/
theorem run_polls_receiving {s : State} (hf : s.fault = none) (pos : Fin 5) (buf : Vector (Option Byte) 5)
    {moves : List Move} {n : Nat} (hpolls : ∀ m ∈ moves.take n, m = .poll) :
    runSteps n (receiving pos buf moves s) = .next (receiving pos buf (moves.drop n) (pollOnce^[n] s)) :=
  (run_polls (s := receiving pos buf moves s) hf hpolls).trans (by rw [iterate_pollOnce_receiving]; rfl)

/-- An unstopped block past the noise. -/
def Ready (s : State) : Prop := s.fault = none ∧ s.rxDiscard = 0

/-- The Poller stops nothing and brings no noise (R151). -/
theorem ready_iterate_pollOnce {s : State} (h : Ready s) (n : Nat) : Ready (pollOnce^[n] s) :=
  ⟨(iterate_pollOnce_fault n s).trans h.1, (iterate_pollOnce_rxDiscard n s).trans h.2⟩

/-- Poller moves, one byte, and what comes after. -/
def pollsThenByte (n : Nat) (b : Byte) (moves : List Move) : List Move :=
  List.replicate n Move.poll ++ Move.rx b :: moves

/-- R151: Poller moves before other moves are `n` Poller steps, whatever the assembler holds. -/
theorem run_replicate_polls {s : State} (hr : Ready s) (pos : Fin 5) (buf : Vector (Option Byte) 5) (moves : List Move)
    (n m : Nat) :
    runSteps (n + m) (receiving pos buf (List.replicate n Move.poll ++ moves) s) =
      runSteps m (receiving pos buf moves (pollOnce^[n] s)) := by
  have hfront : (List.replicate n Move.poll ++ moves).take n = List.replicate n .poll :=
    List.take_left' List.length_replicate
  have hrest : (List.replicate n Move.poll ++ moves).drop n = moves := List.drop_left' List.length_replicate
  have hpolls := run_polls_receiving hr.1 pos buf fun x hx => List.eq_of_mem_replicate (hfront ▸ hx)
  rw [run_add hpolls, hrest]

/-- R91: Poller steps and then a byte before the frame's last. -/
theorem run_polls_byte {s : State} (hr : Ready s) {pos : Fin 5} (hp : pos ≠ 4) (buf : Vector (Option Byte) 5)
    (b : Byte) (moves : List Move) (n m : Nat) :
    runSteps (n + (1 + m)) (receiving pos buf (pollsThenByte n b moves) s) =
      runSteps m (receiving (pos + 1) (buf.set pos.val (some b) pos.isLt) moves (pollOnce^[n] s)) := by
  obtain ⟨hf, hd⟩ := ready_iterate_pollOnce hr n
  have hstep := (step_rx rfl).trans
    (rxStep_partial (b := b) (s := dropMove (receiving pos buf (.rx b :: moves) (pollOnce^[n] s))) hf hd hp)
  rw [pollsThenByte, run_replicate_polls hr, Nat.add_comm 1 m, run_succ hstep]
  rfl

/-- R91, R92: Poller steps and then the frame's last byte. -/
theorem run_polls_frame {s : State} (hr : Ready s) {buf : Vector (Option Byte) 5} (f : Frame)
    (h0 : buf[0] = some f.byte0) (h1 : buf[1] = some f.byte1) (h2 : buf[2] = some f.byte2)
    (h3 : buf[3] = some f.byte3) (moves : List Move) (n : Nat) :
    runSteps (n + 1) (receiving 4 buf (pollsThenByte n f.byte4 moves) s) =
      exec (decodeFrame f) { pollOnce^[n] s with
        schedule := moves
        rxPos := 0
        rxBuf := #v[some f.byte0, some f.byte1, some f.byte2, some f.byte3, some f.byte4]
        tx := (pollOnce^[n] s).tx ++ framesBytes [.ack (decodeFrame f).id] } := by
  obtain ⟨hf, hd⟩ := ready_iterate_pollOnce hr n
  rw [pollsThenByte, run_replicate_polls hr, run_one]
  exact stepRunsTheDecodedOrder f moves (receiving 4 buf (.rx f.byte4 :: moves) (pollOnce^[n] s))
    hf hd rfl h0 h1 h2 h3 rfl

/-- R45, R91, D25: the five bytes of a frame, with Poller steps before each, are those Poller steps and then the
frame's order, acknowledged. -/
theorem run_frame_with_polls {s : State} (hr : Ready s) (buf : Vector (Option Byte) 5) (f : Frame)
    (n0 n1 n2 n3 n4 : Nat) (moves : List Move) :
    runSteps (n0 + n1 + n2 + n3 + n4 + 5) (receiving 0 buf
      (pollsThenByte n0 f.byte0 (pollsThenByte n1 f.byte1 (pollsThenByte n2 f.byte2 (pollsThenByte n3 f.byte3
        (pollsThenByte n4 f.byte4 moves))))) s) =
      exec (decodeFrame f) { pollOnce^[n0 + n1 + n2 + n3 + n4] s with
        schedule := moves
        rxPos := 0
        rxBuf := #v[some f.byte0, some f.byte1, some f.byte2, some f.byte3, some f.byte4]
        tx := (pollOnce^[n0 + n1 + n2 + n3 + n4] s).tx ++ framesBytes [.ack (decodeFrame f).id] } := by
  have hsteps : n0 + n1 + n2 + n3 + n4 + 5 =
      n0 + (1 + (n1 + (1 + (n2 + (1 + (n3 + (1 + (n4 + 1)))))))) := by omega
  have hpolls : n0 + n1 + n2 + n3 + n4 = n4 + (n3 + (n2 + (n1 + n0))) := by omega
  have hready := ready_iterate_pollOnce hr
  rw [hsteps, hpolls, run_polls_byte hr (by decide), run_polls_byte (hready n0) (by decide),
    ← Function.iterate_add_apply, run_polls_byte (hready _) (by decide), ← Function.iterate_add_apply,
    run_polls_byte (hready _) (by decide), ← Function.iterate_add_apply, Function.iterate_add_apply pollOnce n4]
  exact run_polls_frame (hready _) f (by simp) (by simp) (by simp) (by simp) moves n4

/-- Settles O31: the Poller alone gives the state the frame's order finds. -/
theorem fiveBytesAreOneFrameWhateverThePollerDoes : Obligations.FiveBytesAreOneFrameWhateverThePollerDoes := by
  intro f n0 n1 n2 n3 n4 s hf hd hp hschedule
  refine ⟨receiving 0 s.rxBuf [] (pollOnce^[n0 + n1 + n2 + n3 + n4] s), ?_, ?_⟩
  · have halone := run_polls_receiving hf 0 s.rxBuf (moves := []) (n := n0 + n1 + n2 + n3 + n4)
      fun m hm => by simp at hm
    rw [List.drop_nil] at halone
    rw [← halone, ← hp]
    rfl
  · have hs : receiving 0 s.rxBuf s.schedule s = s := by rw [← hp]; rfl
    rw [hschedule] at hs
    exact (congrArg (runSteps _) hs.symm).trans (run_frame_with_polls ⟨hf, hd⟩ s.rxBuf f n0 n1 n2 n3 n4 [])

/-- R90: a noise byte's step counts the discard down. -/
theorem run_noise {s : State} (hf : s.fault = none) (b : Byte) (moves : List Move) (d n : Nat) :
    runSteps (n + 1) { s with schedule := .rx b :: moves, rxDiscard := d + 1 } =
      runSteps n { s with schedule := moves, rxDiscard := d } := by
  have hstep := (byteBeforeAFrameEndOnlyMovesTheAssembler b moves
    { s with schedule := .rx b :: moves, rxDiscard := d + 1 } hf rfl).1 d.succ_ne_zero
  exact run_succ hstep n

/-- Settles O32: three noise bytes count the discard down, and the frame follows with no Poller step between. -/
theorem noiseIsDiscardedThenTheFirstFrameRuns : Obligations.NoiseIsDiscardedThenTheFirstFrameRuns := by
  intro x y z f rest
  have hreset : State.reset.fault = none := rfl
  calc runSteps 8 _ = runSteps 7 _ := run_noise hreset x _ 2 7
    _ = runSteps 6 _ := run_noise hreset y _ 1 6
    _ = runSteps 5 _ := run_noise hreset z _ 0 5
    _ = _ := run_frame_with_polls (s := { State.reset with rxDiscard := 0 }) ⟨rfl, rfl⟩ _ f 0 0 0 0 0 rest

end Sys2Proof.Machine

/-! ### Feedback: proofs of the statements on the frames' bytes (spec/43_feedback.md) -/

namespace Sys2Proof.Machine

/-- R70: the first byte of a feedback frame is its kind code and its low nibble side by side. -/
theorem feedbackHead_eq_append (kind low : Nibble) : feedbackHead kind low = kind ++ low :=
  Laws.FrameLayout.firstByte kind low

theorem toNat_feedbackHead (kind low : Nibble) : (feedbackHead kind low).toNat = 16 * kind.toNat + low.toNat := by
  rw [feedbackHead_eq_append, toNat_append_eq]
  omega

/-- R70: the kind code is the high nibble of the first byte. -/
theorem feedbackHead_kind (kind low : Nibble) : (feedbackHead kind low).extractLsb' 4 4 = kind := by
  rw [feedbackHead_eq_append]
  exact BitVec.extractLsb'_append_eq_left

/-- R70: the low nibble of the first byte is what `lowNibble` says. -/
theorem feedbackHead_low (kind low : Nibble) : (feedbackHead kind low).extractLsb' 0 4 = low := by
  rw [feedbackHead_eq_append]
  exact BitVec.extractLsb'_append_eq_right

/-- R43: the four bytes of a payload, side by side, are the payload. -/
theorem bigEndian32_append (p : Bits32) :
    p.extractLsb' 24 8 ++ p.extractLsb' 16 8 ++ p.extractLsb' 8 8 ++ p.extractLsb' 0 8 = p := by
  have hp := p.isLt
  apply BitVec.eq_of_toNat_eq
  simp only [toNat_append_eq, BitVec.extractLsb'_toNat, Nat.shiftRight_eq_div_pow]
  omega

/-- R43: the four bytes of a payload as a number, most significant first. -/
theorem bigEndian32_toNat (p : Bits32) :
    2 ^ 24 * (p.extractLsb' 24 8).toNat + 2 ^ 16 * (p.extractLsb' 16 8).toNat + 2 ^ 8 * (p.extractLsb' 8 8).toNat +
      (p.extractLsb' 0 8).toNat = p.toNat := by
  have hp := p.isLt
  simp only [BitVec.extractLsb'_toNat, Nat.shiftRight_eq_div_pow]
  omega

/-- Settles O42: the head of each frame as a number, and VARIABLE's payload. -/
theorem ackTermAndVarHaveTheirLayout : Obligations.AckTermAndVarHaveTheirLayout :=
  ⟨fun id => ⟨_, bytes_ack id, toNat_feedbackHead ..⟩, fun id => ⟨_, bytes_term id, toNat_feedbackHead ..⟩,
    fun i p => ⟨_, _, _, _, _, bytes_var i p, toNat_feedbackHead .., bigEndian32_toNat p⟩⟩

/-- R165: a burst begins with the pattern 0. -/
theorem head?_trackingBurst : trackingBurst.head? = some (.trk 0) := by
  rw [trackingBurst, List.head?_map, List.head?_range]
  rfl

/-- Settles O43: TRACKING's head and payload, and the burst counted. -/
theorem trackingFramesHaveTheirLayout : Obligations.TrackingFramesHaveTheirLayout :=
  ⟨fun p => ⟨_, _, _, _, _, bytes_trk p, toNat_feedbackHead .., bigEndian32_toNat p⟩, length_trackingBurst,
    head?_trackingBurst, by rw [length_framesBytes, length_trackingBurst]⟩

/-! #### The Host's reading -/

/-- R71: the four kind codes are pairwise distinct, being images of distinct values under a permutation. -/
theorem feedbackCodes_nodup :
    [feedbackCodes.ack, feedbackCodes.term, feedbackCodes.var, feedbackCodes.track].Nodup :=
  List.Nodup.map (f := Config.kindCoding) (l := [0, 1, 2, 3]) (Equiv.injective _) (by decide)

/-- R168: the Host reads every frame of this block back: its kind code is none of the other three. -/
theorem readFeedback_bytes (f : Feedback) :
    readFeedback feedbackCodes (feedbackHead (feedbackCodes.code f.kind) (feedbackCodes.lowNibble f))
      (f.payload.extractLsb' 24 8) (f.payload.extractLsb' 16 8) (f.payload.extractLsb' 8 8)
      (f.payload.extractLsb' 0 8) = some f := by
  have hnodup := feedbackCodes_nodup
  simp only [List.nodup_cons, List.mem_cons, List.not_mem_nil, or_false, not_or, List.nodup_nil, and_true] at hnodup
  obtain ⟨⟨hat, hav, hak⟩, ⟨htv, htk⟩, hvk, -⟩ := hnodup
  simp only [readFeedback, feedbackHead_kind, feedbackHead_low, bigEndian32_append]
  cases f with
  | ack id => rw [Feedback.kind, FeedbackCodes.code, if_pos rfl]; rfl
  | term id => rw [Feedback.kind, FeedbackCodes.code, if_neg (Ne.symm hat), if_pos rfl]; rfl
  | var i p =>
    rw [Feedback.kind, FeedbackCodes.code, if_neg (Ne.symm hav), if_neg (Ne.symm htv), if_pos rfl]
    rfl
  | trk p =>
    rw [Feedback.kind, FeedbackCodes.code, if_neg (Ne.symm hak), if_neg (Ne.symm htk), if_neg (Ne.symm hvk),
      if_pos rfl]
    exact if_pos rfl

/-- Settles O44: the codes are distinct, so the Host takes the frame's own branch. -/
theorem hostReadsEveryFeedbackFrame : Obligations.HostReadsEveryFeedbackFrame :=
  ⟨feedbackCodes_nodup, fun f => ⟨_, _, _, _, _, rfl, readFeedback_bytes f⟩⟩

/-- R168: frames with the same bytes are the same. -/
theorem bytes_injective {f g : Feedback} (h : f.bytes = g.bytes) : f = g := by
  have hf := readFeedback_bytes f
  rw [Feedback.bytes, Feedback.bytes, Feedback.bytesWith, Feedback.bytesWith, bigEndian32, bigEndian32] at h
  simp only [List.cons.injEq] at h
  obtain ⟨h0, h1, h2, h3, h4, -⟩ := h
  rw [h0, h1, h2, h3, h4, readFeedback_bytes g] at hf
  exact (Option.some.inj hf).symm

/-- Settles O45: frames have five bytes each, so the first five of a stream are those of its first frame. -/
theorem streamDeterminesItsFrames : Obligations.StreamDeterminesItsFrames := by
  intro fs
  induction fs with
  | nil =>
    intro gs h
    have hlength := congrArg List.length h
    rw [length_framesBytes, length_framesBytes] at hlength
    exact (List.length_eq_zero_iff.mp (by simpa using hlength.symm)).symm
  | cons f fs ih =>
    intro gs h
    cases gs with
    | nil =>
      have hlength := congrArg List.length h
      simp at hlength
    | cons g gs =>
      rw [framesBytes_cons, framesBytes_cons] at h
      obtain ⟨hfirst, hrest⟩ := List.append_inj h rfl
      rw [bytes_injective hfirst, ih gs hrest]

end Sys2Proof.Machine
